-- ==== Sys2Proof/Word.lean ====
section
/-!
DEFINITION. The word types of the block (00_scope.md R9, R10): bytes, whose bits are numbered 7 down to 0, and the
one-bit levels of the two lines.
-/

namespace Sys2Proof

/-- A byte of the datapath: an unsigned 8-bit value (R9). -/
abbrev Byte := BitVec 8

/-- The level of a line, and any other one-bit value: `true` is 1, high (R16). -/
abbrev Level := Bool

end Sys2Proof
end

