-- ==== Sys2Proof/Config.lean ====
section
/-!
DEFINITION. The parameter record `KftParams` of 00_scope.md R6, the constants the spec fixes, and the free values.

An OPEN parameter has no value in any source (92_eei_decisions.md D13), so here it is a constant with no body: nothing can be
proved of it. Every other state may carry any `KftParams` (log 1), so a statement over all states quantifies over them.
-/

namespace Sys2Proof

/-- BUTTON_TABLE: 256 entries, each a label or unmapped (R40). -/
abbrev ButtonTable := Vector (Option String) 256

/-- The named delays of R6. -/
inductive Delay where
  /-- `T_SETUP` -/
  | setup
  /-- `T_HOLD` -/
  | hold
  /-- `T_SETTLE` -/
  | settle
  /-- `T_XSETUP` -/
  | xsetup
  /-- `T_DRIVE` -/
  | drive
  /-- `T_CLKHIGH` -/
  | clkHigh
  /-- `T_BITGAP` -/
  | bitGap
  /-- `T_BYTEGAP` -/
  | byteGap
  deriving DecidableEq, Repr

/-- The parameters of R6 that the spec leaves OPEN, `FLAGS_MUTABLE`, for which it gives both behaviours (R26), and `RESP_IDX` and
`SENT_IDX`, which it keeps as parameters with a default (decision D6, I17). -/
structure KftParams where
  /-- `CMD_PARTITION` -/
  cmdPartition : Byte
  /-- `CMD_LIGHTS` -/
  cmdLights : Byte
  /-- `CMD_DATETIME` -/
  cmdDatetime : Byte
  /-- `CMD_QUERY` -/
  cmdQuery : Byte
  /-- `DISABLED_BYTE` -/
  disabledByte : Byte
  /-- `PLACEHOLDER_BYTE` -/
  placeholderByte : Byte
  /-- `SENTINEL` -/
  sentinel : Byte
  /-- `VOID` -/
  void : Byte
  /-- `BUTTON_TABLE`, but for the three entries the source fixes (R102), which `buttonEntry` gives -/
  buttonTable : ButtonTable
  /-- `INIT_FLAGS` -/
  initFlags : BitVec 8
  /-- `FLAGS_MUTABLE` -/
  flagsMutable : Bool
  /-- `RESP_IDX`, the record entry VOID_TEST reads -/
  respIdx : Nat
  /-- `SENT_IDX`, the record entry SENTINEL_TEST reads -/
  sentIdx : Nat
  /-- `RESP_CAP` -/
  respCap : Nat
  /-- `T_TOL`, in µs -/
  tTol : Nat
  deriving DecidableEq, Repr

namespace Config

/-- `CMD_ZONE` (R6, R64). -/
def cmdZone : Byte := 0x27#8

/-- `UNKNOWN_BYTE` (R6, R64). -/
def unknownByte : Byte := 0x91#8

/-- `T_POLL` in µs, as the 22-bit POLLT holds it (R6, R32). -/
def tPoll : BitVec 22 := 3000000#22

/-- `REC_CAP` (R38). -/
def recCap : Nat := 21

/-- OPEN: `CMD_PARTITION` of the block at hand. -/
opaque cmdPartition : Byte

/-- OPEN: `CMD_LIGHTS`. -/
opaque cmdLights : Byte

/-- OPEN: `CMD_DATETIME`. -/
opaque cmdDatetime : Byte

/-- OPEN: `CMD_QUERY`. -/
opaque cmdQuery : Byte

/-- OPEN: `DISABLED_BYTE`. -/
opaque disabledByte : Byte

/-- OPEN: `PLACEHOLDER_BYTE`. -/
opaque placeholderByte : Byte

/-- OPEN: `SENTINEL`. -/
opaque sentinel : Byte

/-- OPEN: `VOID`. -/
opaque void : Byte

/-- OPEN: the entries of `BUTTON_TABLE` beyond the three of R102. -/
opaque buttonTable : ButtonTable

/-- OPEN: `INIT_FLAGS` (R138). -/
opaque initFlags : BitVec 8

/-- OPEN: `RESP_CAP`. -/
opaque respCap : Nat

/-- OPEN: `T_TOL`. -/
opaque tTol : Nat

/-- The parameters of the block at hand: the OPEN ones unknown, `FLAGS_MUTABLE`, `RESP_IDX` and `SENT_IDX` as R6 sets them. -/
def params : KftParams where
  cmdPartition := cmdPartition
  cmdLights := cmdLights
  cmdDatetime := cmdDatetime
  cmdQuery := cmdQuery
  disabledByte := disabledByte
  placeholderByte := placeholderByte
  sentinel := sentinel
  void := void
  buttonTable := buttonTable
  initFlags := initFlags
  flagsMutable := false
  respIdx := 2
  sentIdx := 4
  respCap := respCap
  tTol := tTol

/-- Free value: the level the n-th sample of the data line finds, where the state lists none (R16, I5; log 2). -/
opaque freeSample : Nat → Level

/-- Free value: the level of `CLK_O` after a line fault (R125; log 4). -/
opaque freeClk : Nat → Level

/-- Free value: the level of `DATA_O` after a line fault (R125; log 4). -/
opaque freeData : Nat → Level

/-- Free value: `FLAGS` at the start of a cycle when `FLAGS_MUTABLE` (R26, R109; log 5). -/
opaque freeFlags : Nat → BitVec 8

/-- Free value: the wording of a fallback label before its hex digits (R71, I9; log 19). -/
opaque fallbackBefore : Byte → String

/-- Free value: the wording of a fallback label after its hex digits (R71, I9; log 19). -/
opaque fallbackAfter : Byte → String

end Config

end Sys2Proof
end

