-- ==== Sys2Proof/Syntax.lean ====
section
/-!
DEFINITION. The operations of the block, one constructor per row of spec/opcode_table.json (30_encoding.md R73), their
operands, and the words an operation is read from.
-/

namespace Sys2Proof

/-- `SEQ[1:0]`, PHASE (R27). -/
inductive Phase where
  | idle
  | cycle
  | stopped
  | faulted
  deriving DecidableEq, Repr

/-- `SEQ[3:2]`, STEP (R27). -/
inductive Step where
  /-- partition-status -/
  | part
  /-- zone-status -/
  | zone
  /-- zone-lights -/
  | lights
  /-- datetime -/
  | dt
  deriving DecidableEq, Repr

/-- The three used codes of `SEQ[5:4]`, SUB (R27). -/
inductive Sub where
  /-- send the step's frame -/
  | main
  /-- send the secondary keybus-query frame -/
  | query
  /-- inspect and clear -/
  | post
  deriving DecidableEq, Repr

/-- The five frame types (R57), with the FRAME codes 1 to 5 of `FAULT_INFO` (R30). -/
inductive FrameType where
  | part
  | zone
  | lights
  | dt
  | query
  deriving DecidableEq, Repr

/-- The three line primitives, with the OP codes 0 to 2 of `FAULT_INFO` (R30). -/
inductive LineOp where
  /-- `LineSet(CLK, v)` -/
  | setClk
  /-- `LineSet(DATA, v)` -/
  | setData
  /-- `LineGet(DATA)` -/
  | get
  deriving DecidableEq, Repr

/-- The two causes HALT takes (R108). -/
inductive HaltCause where
  | shutdownToken
  | stopSignal
  deriving DecidableEq, Repr

/-- The five DateTimeFields as the wall clock presents them, each an unsigned integer (R21). -/
structure DateTime where
  /-- year offset -/
  y : Nat
  /-- month -/
  mo : Nat
  /-- day -/
  d : Nat
  /-- hour -/
  h : Nat
  /-- minute -/
  mi : Nat
  deriving DecidableEq, Repr

/-- The operations of the block (R73). -/
inductive Instr where
  /-- LINE_SET_CLK(v), R80 -/
  | lineSetClk (v : Level)
  /-- LINE_SET_DATA(v), R81 -/
  | lineSetData (v : Level)
  /-- LINE_GET(), R82 -/
  | lineGet
  /-- RECV_BIT(), R83 -/
  | recvBit
  /-- XCHG_BYTE(b), R84 -/
  | xchgByte (b : Byte)
  /-- XCHG_FRAME(f), R86 -/
  | xchgFrame (f : List Byte)
  /-- CKSUM(f), R92 -/
  | cksum (f : List Byte)
  /-- BUILD_PART(s), R93 -/
  | buildPart (st : Byte)
  /-- BUILD_ZONE(s), R94 -/
  | buildZone (st : Byte)
  /-- BUILD_LIGHTS(s), R95 -/
  | buildLights (st : Byte)
  /-- BUILD_DT(y, mo, d, h, mi), R97 -/
  | buildDt (t : DateTime)
  /-- BUILD_QUERY(), R98 -/
  | buildQuery
  /-- ENC_STATUS of FLAGS, R100 -/
  | encStatus
  /-- DEC_RESP(r), R103 -/
  | decResp (r : Byte)
  /-- POLL, R107 -/
  | poll
  /-- STEP_PART, R110 -/
  | stepPart
  /-- STEP_ZONE, R111 -/
  | stepZone
  /-- STEP_LIGHTS, R112 -/
  | stepLights
  /-- STEP_DT, R113 -/
  | stepDt
  /-- QUERY, R115; the operand is the STEP field of its SEQ word, any of the four (R73, R105; log 24) -/
  | query (p : Step)
  /-- POST, R116; the operand is the STEP field of its SEQ word -/
  | post (p : Step)
  /-- HALT(c), R108 -/
  | halt (c : HaltCause)
  /-- FAULT: fault entry in frame type t at primitive op, R124 -/
  | fault (t : FrameType) (op : LineOp)
  deriving DecidableEq, Repr

/-- A slot on the wire (R55): a byte slot with the byte the block sends, or a bit slot, in which it sends nothing. -/
inductive Slot where
  | byte (b : Byte)
  | bit
  deriving DecidableEq, Repr

/-- What selects an operation (R73): a value of `SEQ`; a frame in its wire format; the slots of the wire; or, for an
operation with no encoding of its own, the call by another operation. -/
inductive OpWord where
  | seq (w : BitVec 6)
  | frame (bs : List Byte)
  | slots (ss : List Slot)
  | called (i : Instr)
  deriving DecidableEq, Repr

end Sys2Proof
end

