-- ==== Sys2Proof/WellFormed.lean ====
section
/-!
DEFINITION. The operands the spec gives each operation a meaning for.
-/

namespace Sys2Proof

/-- The ranges of R96. -/
def DateTime.inRange (t : DateTime) : Bool :=
  t.y ≤ 99 && 1 ≤ t.mo && t.mo ≤ 12 && 1 ≤ t.d && t.d ≤ 31 && t.h ≤ 23 && t.mi ≤ 59

/-- The operands an operation is given: XCHG_FRAME at least 5 bytes (R86), CKSUM at least one (R92), BUILD_DT in range
(R96); the rest take every value of their type. -/
def Instr.wf : Instr → Bool
  | .lineSetClk _ => true
  | .lineSetData _ => true
  | .lineGet => true
  | .recvBit => true
  | .xchgByte _ => true
  | .xchgFrame f => 5 ≤ f.length
  | .cksum f => 1 ≤ f.length
  | .buildPart _ => true
  | .buildZone _ => true
  | .buildLights _ => true
  | .buildDt t => t.inRange
  | .buildQuery => true
  | .encStatus => true
  | .decResp _ => true
  | .poll => true
  | .stepPart => true
  | .stepZone => true
  | .stepLights => true
  | .stepDt => true
  | .query _ => true
  | .post _ => true
  | .halt _ => true
  | .fault _ _ => true

end Sys2Proof
end

