-- ==== Sys2Proof/Decode.lean ====
section
/-!
DEFINITION. The encodings of 10_state.md R27 and 30_encoding.md R55 to R68, a decoder that is total on them and rejects by
name, and the encoder.
-/

namespace Sys2Proof

/-- Why a word is no operation. -/
inductive DecodeError where
  /-- PHASE is STOPPED: the block is quiescent (R135) -/
  | stopped
  /-- PHASE is FAULTED: the block is quiescent (R135) -/
  | faulted
  /-- `SEQ[5:4] = 3`, never used (R75) -/
  | reservedSub
  /-- no frame type has this length (R57) -/
  | frameLength
  /-- byte 0 is not the command of the frame type (R58 to R62) -/
  | frameCommand
  /-- a constant byte of the format differs (R58 to R62) -/
  | frameConstant
  /-- the last byte is not the checksum of the bytes before it (R63) -/
  | frameChecksum
  /-- the four bytes are not the packing of an in-range date and time (R67, R96) -/
  | dateTime
  /-- not the exchange shape (R56) -/
  | slotShape
  /-- an operation with an encoding of its own, presented as a call (R73) -/
  | selectedElsewhere
  /-- operands the operation is not given (`Instr.wf`) -/
  | operands
  deriving DecidableEq, Repr

/-! ## SEQ words (R27) -/

/-- The code of PHASE. -/
def Phase.code : Phase → BitVec 2
  | .idle => 0#2
  | .cycle => 1#2
  | .stopped => 2#2
  | .faulted => 3#2

/-- The code of STEP. -/
def Step.code : Step → BitVec 2
  | .part => 0#2
  | .zone => 1#2
  | .lights => 2#2
  | .dt => 3#2

/-- The code of SUB. -/
def Sub.code : Sub → BitVec 2
  | .main => 0#2
  | .query => 1#2
  | .post => 2#2

/-- `SUB ++ STEP ++ PHASE`. -/
def mkSeq (ph : Phase) (p : Step) (u : Sub) : BitVec 6 := u.code ++ p.code ++ ph.code

/-- `SEQ[1:0]`. -/
def seqPhase (w : BitVec 6) : Phase :=
  let c := w.extractLsb' 0 2
  if c = 0#2 then .idle else if c = 1#2 then .cycle else if c = 2#2 then .stopped else .faulted

/-- `SEQ[3:2]`. -/
def seqStep (w : BitVec 6) : Step :=
  let c := w.extractLsb' 2 2
  if c = 0#2 then .part else if c = 1#2 then .zone else if c = 2#2 then .lights else .dt

/-- `SEQ[5:4]`; the code 3 is reserved (R75). -/
def seqSub (w : BitVec 6) : Option Sub :=
  let c := w.extractLsb' 4 2
  if c = 0#2 then some .main else if c = 1#2 then some .query else if c = 2#2 then some .post else none

/-- The operation SUB selects in a step of a cycle (R73); QUERY in any step (R105; log 24). -/
def decodeCycle (p : Step) : Sub → Except DecodeError Instr
  | .main => .ok (match p with
    | .part => .stepPart
    | .zone => .stepZone
    | .lights => .stepLights
    | .dt => .stepDt)
  | .query => .ok (.query p)
  | .post => .ok (.post p)

/-- The operation a value of SEQ selects (R73, R75; the order of the tests: log 23). -/
def decodeSeq (w : BitVec 6) : Except DecodeError Instr :=
  match seqSub w with
  | none => .error .reservedSub
  | some u =>
    match seqPhase w with
    | .idle => .ok .poll
    | .cycle => decodeCycle (seqStep w) u
    | .stopped => .error .stopped
    | .faulted => .error .faulted

/-! ## Wire frames (R57 to R68) -/

/-- The sum of the bytes modulo 256 (R63). -/
def sumBytes : List Byte → Byte
  | [] => 0#8
  | b :: bs => b + sumBytes bs

/-- Bytes b1 to b4 of a datetime frame, by the bit layout of R67. -/
def packBits (t : DateTime) : List Byte :=
  let d := BitVec.ofNat 5 t.d
  [ BitVec.ofNat 4 (t.y / 10) ++ BitVec.ofNat 4 (t.y % 10),
    0#2 ++ BitVec.ofNat 4 t.mo ++ d.extractLsb' 3 2,
    d.extractLsb' 0 3 ++ BitVec.ofNat 5 t.h,
    BitVec.ofNat 6 t.mi ++ 0#2 ]

/-- The inverse of the packing (R68). -/
def unpackBits (b1 b2 b3 b4 : Byte) : DateTime where
  y := 10 * (b1.extractLsb' 4 4).toNat + (b1.extractLsb' 0 4).toNat
  mo := (b2.extractLsb' 2 4).toNat
  d := (b2.extractLsb' 0 2 ++ b3.extractLsb' 5 3).toNat
  h := (b3.extractLsb' 0 5).toNat
  mi := (b4.extractLsb' 2 6).toNat

/-- The operation whose wire format (R58 to R62) these bytes are (log 11). -/
def decodeFrame (p : KftParams) : List Byte → Except DecodeError Instr
  | [c, st, k2, k3, k4] =>
    if c ≠ p.cmdPartition then .error .frameCommand
    else if [k2, k3, k4] ≠ [0x01#8, Config.unknownByte, p.disabledByte] then .error .frameConstant
    else .ok (.buildPart st)
  | [c, st, k2, k3, k4, k5, x] =>
    if c ≠ Config.cmdZone then .error .frameCommand
    else if [k2, k3, k4, k5] ≠ [0x01#8, Config.unknownByte, 0xC7#8, 0x02#8] then .error .frameConstant
    else if x ≠ sumBytes [c, st, k2, k3, k4, k5] then .error .frameChecksum
    else .ok (.buildZone st)
  | [c, st, k2, k3, k4, k5, k6, k7, x] =>
    if c ≠ p.cmdLights then .error .frameCommand
    else if [k2, k3, k4, k5, k6, k7] ≠ [0x01#8, 0x65#8, 0x00#8, 0x00#8, 0x00#8, 0x00#8] then .error .frameConstant
    else if x ≠ sumBytes [c, st, k2, k3, k4, k5, k6, k7] then .error .frameChecksum
    else .ok (.buildLights st)
  | [c, b1, b2, b3, b4, k5, k6, x] =>
    if c ≠ p.cmdDatetime then .error .frameCommand
    else if [k5, k6] ≠ [0x00#8, 0x00#8] then .error .frameConstant
    else if x ≠ sumBytes [c, b1, b2, b3, b4, k5, k6] then .error .frameChecksum
    else
      let t := unpackBits b1 b2 b3 b4
      if t.inRange && packBits t = [b1, b2, b3, b4] then .ok (.buildDt t) else .error .dateTime
  | [c, k1, k2, k3, k4, k5, k6, k7, k8, k9, k10, k11] =>
    if c ≠ p.cmdQuery then .error .frameCommand
    else if [k1, k2, k3, k4, k5, k6, k7, k8, k9, k10, k11] ≠ List.replicate 11 p.placeholderByte then
      .error .frameConstant
    else .ok .buildQuery
  | _ => .error .frameLength

/-! ## Slots (R55, R56) -/

/-- The bytes of a run of byte slots; none where a bit slot stands among them. -/
def slotBytes : List Slot → Option (List Byte)
  | [] => some []
  | .byte b :: ss => (slotBytes ss).map (b :: ·)
  | .bit :: _ => none

/-- One bit slot, one byte slot, or the exchange shape of a frame. -/
def decodeSlots : List Slot → Except DecodeError Instr
  | [.bit] => .ok .recvBit
  | [.byte b] => .ok (.xchgByte b)
  | .byte b :: .bit :: ss =>
    match slotBytes ss with
    | some bs => if 4 ≤ bs.length then .ok (.xchgFrame (b :: bs)) else .error .slotShape
    | none => .error .slotShape
  | _ => .error .slotShape

/-! ## All words -/

/-- The operations with no encoding of their own: those another operation calls (R73). -/
def Instr.isCalled : Instr → Bool
  | .lineSetClk _ => true
  | .lineSetData _ => true
  | .lineGet => true
  | .recvBit => false
  | .xchgByte _ => false
  | .xchgFrame _ => false
  | .cksum _ => true
  | .buildPart _ => false
  | .buildZone _ => false
  | .buildLights _ => false
  | .buildDt _ => false
  | .buildQuery => false
  | .encStatus => true
  | .decResp _ => true
  | .poll => false
  | .stepPart => false
  | .stepZone => false
  | .stepLights => false
  | .stepDt => false
  | .query _ => false
  | .post _ => false
  | .halt _ => true
  | .fault _ _ => true

/-- The operation a word selects, or why there is none. -/
def decode (p : KftParams) : OpWord → Except DecodeError Instr
  | .seq w => decodeSeq w
  | .frame bs => decodeFrame p bs
  | .slots ss => decodeSlots ss
  | .called i =>
    if i.isCalled then (if i.wf then .ok i else .error .operands) else .error .selectedElsewhere

/-! ## The encoder -/

/-- The format with its checksum appended (R63). -/
def withSum (f : List Byte) : List Byte := f ++ [sumBytes f]

/-- R58. -/
def partFormat (p : KftParams) (st : Byte) : List Byte :=
  [p.cmdPartition, st, 0x01#8, Config.unknownByte, p.disabledByte]

/-- R59. -/
def zoneFormat (st : Byte) : List Byte :=
  withSum [Config.cmdZone, st, 0x01#8, Config.unknownByte, 0xC7#8, 0x02#8]

/-- R60. -/
def lightsFormat (p : KftParams) (st : Byte) : List Byte :=
  withSum [p.cmdLights, st, 0x01#8, 0x65#8, 0x00#8, 0x00#8, 0x00#8, 0x00#8]

/-- R61. -/
def dtFormat (p : KftParams) (t : DateTime) : List Byte :=
  withSum (p.cmdDatetime :: packBits t ++ [0x00#8, 0x00#8])

/-- R62. -/
def queryFormat (p : KftParams) : List Byte := p.cmdQuery :: List.replicate 11 p.placeholderByte

/-- The exchange shape of a frame (R56): byte 0, the turnaround bit slot, the other bytes. -/
def frameSlots : List Byte → List Slot
  | [] => []
  | b :: bs => .byte b :: .bit :: bs.map .byte

/-- The word that selects an operation. -/
def encode (p : KftParams) : Instr → OpWord
  | .lineSetClk v => .called (.lineSetClk v)
  | .lineSetData v => .called (.lineSetData v)
  | .lineGet => .called .lineGet
  | .recvBit => .slots [.bit]
  | .xchgByte b => .slots [.byte b]
  | .xchgFrame f => .slots (frameSlots f)
  | .cksum f => .called (.cksum f)
  | .buildPart st => .frame (partFormat p st)
  | .buildZone st => .frame (zoneFormat st)
  | .buildLights st => .frame (lightsFormat p st)
  | .buildDt t => .frame (dtFormat p t)
  | .buildQuery => .frame (queryFormat p)
  | .encStatus => .called .encStatus
  | .decResp r => .called (.decResp r)
  | .poll => .seq (mkSeq .idle .part .main)
  | .stepPart => .seq (mkSeq .cycle .part .main)
  | .stepZone => .seq (mkSeq .cycle .zone .main)
  | .stepLights => .seq (mkSeq .cycle .lights .main)
  | .stepDt => .seq (mkSeq .cycle .dt .main)
  | .query p => .seq (mkSeq .cycle p .query)
  | .post p => .seq (mkSeq .cycle p .post)
  | .halt c => .called (.halt c)
  | .fault t op => .called (.fault t op)

/-! ## The words of the opcode table

A row of spec/opcode_table.json gives either bits of SEQ or byte 0 of a frame, so a table word is read as a SEQ value where
it selects an operation, and else as byte 0 of a frame whose operand bits are 0 and whose constant bytes and checksum are
those of the format byte 0 selects (log 10). -/

/-- The frame byte 0 selects, its operand bytes 0. DESIGN CHOICE (log 10): where command parameters coincide (R8, R77 leave
that open) the zone-status format is taken first, then partition-status, zone-lights, datetime, keybus-query. -/
def frameOfCommand (c : Byte) : List Byte :=
  if c = Config.cmdZone then zoneFormat 0x00#8
  else if c = Config.params.cmdPartition then partFormat Config.params 0x00#8
  else if c = Config.params.cmdLights then lightsFormat Config.params 0x00#8
  else if c = Config.params.cmdDatetime then withSum [c, 0x00#8, 0x00#8, 0x00#8, 0x00#8, 0x00#8, 0x00#8]
  else if c = Config.params.cmdQuery then queryFormat Config.params
  else [c]

/-- The word of the block that a table word of one byte stands for. -/
def tableWord (w : Nat) : OpWord :=
  if 256 ≤ w then .frame []
  else if 64 ≤ w then .frame (frameOfCommand (BitVec.ofNat 8 w))
  else match decodeSeq (BitVec.ofNat 6 w) with
    | .ok _ => .seq (BitVec.ofNat 6 w)
    | .error _ => .frame (frameOfCommand (BitVec.ofNat 8 w))

/-- The operation the decoder reads from a word of the opcode table; every row has at most one byte. -/
def decodeTableWord (nbits w : Nat) : Option Instr :=
  if nbits = 0 then none else
  match decode Config.params (tableWord w) with
  | .ok i => some i
  | .error _ => none

end Sys2Proof
end

