-- ==== Sys2Proof/Machine/State.lean ====
section
/-!
DEFINITION. The state of the block as plain data: its registers (10_state.md R25 to R32), the ConversationRecord (R34), the
parameters, and its interfaces (R15) held as data; the reasons a step stops; the state after reset.
-/

namespace Sys2Proof.Machine

/-- An entry of the ConversationRecord (R34). -/
inductive Entry where
  /-- a bit exchange -/
  | bit (sent rcv : Level)
  /-- a byte exchange -/
  | byte (sent rcv : Byte)
  deriving DecidableEq, Repr

/-- A response label (R71). -/
structure Label where
  mapped : Bool
  code : Byte
  deriving DecidableEq, Repr

/-- The kind of a command token, all the block's port sees of it (R18, R72). -/
inductive Token where
  | shutdown
  | other
  deriving DecidableEq, Repr

/-- `TERM_CAUSE` (R29); its codes are `TermCause.code`. -/
inductive TermCause where
  | running
  | shutdownToken
  | stopSignal
  | lineFault
  deriving DecidableEq, Repr

/-- An event of the trace (00_scope.md R13). -/
inductive Event where
  | clk (v : Level)
  | data (v : Level)
  | sample (b : Level)
  | wait (t : Delay)
  | pop (k : Token)
  | timeout
  | resp (l : Label)
  | diag (record : List Entry) (unknown : Bool)
  | fault (info : BitVec 10)
  | halt (c : TermCause)
  deriving DecidableEq, Repr

/-- A diagnostics item (30_encoding.md R70). -/
inductive DiagItem where
  | stepDiag (p : Step) (entries : List Entry) (unknown : Bool)
  | faultDiag (info : BitVec 10) (entries : List Entry)
  deriving DecidableEq, Repr

/-- What the environment does at a line primitive: it completes or fails (R17), or reset is asserted before it takes
effect (R23; log 17). -/
inductive LineOutcome where
  | ok
  | fail
  | reset
  deriving DecidableEq, Repr

/-- A change the environment makes to the block's interfaces (R15; log 8). -/
inductive EnvAction where
  /-- the caller writes a token into the command channel (R18) -/
  | token (text : String)
  /-- the caller takes labels from the head of the response channel (R19) -/
  | takeLabels (n : Nat)
  /-- the level of `stop_i` (R22) -/
  | setStop (v : Bool)
  /-- the value `rtc_i` presents (R21) -/
  | setRtc (t : DateTime)
  /-- the level of the reset input (R23); a step sees the level its batch leaves (log 33) -/
  | setReset (v : Bool)
  /-- levels the coming samples will find, after those already listed (R16) -/
  | samples (bs : List Level)
  /-- outcomes of the coming line primitives, after those already listed (R17) -/
  | outcomes (os : List LineOutcome)
  deriving DecidableEq, Repr

/-- The value an operation returns to its caller (log 7). -/
inductive OpResult where
  | nothing
  | bit (b : Level)
  | byte (b : Byte)
  | frame (f : List Byte)
  | label (l : Label)
  deriving DecidableEq, Repr

/-- The state of the block and its interfaces. -/
@[ext]
structure State where
  /-- the parameters, constant for the life of the block (R6, R53) -/
  par : KftParams
  /-- register 0, `FLAGS` (R26) -/
  flags : BitVec 8
  /-- register 1, `SEQ` (R27) -/
  seq : BitVec 6
  /-- `REC`, whose length is register 2, `REC_LEN` (R34) -/
  record : List Entry
  /-- register 3, `UNK` (R28) -/
  unk : Bool
  /-- register 4, `TERM_CAUSE` (R29) -/
  termCause : TermCause
  /-- register 5, `FAULT_INFO` (R30) -/
  faultInfo : BitVec 10
  /-- register 6, `RESP_OVF` (R31) -/
  respOvf : Bool
  /-- register 7, `POLLT` (R32) -/
  pollT : BitVec 22
  /-- register 8, `CLK_O` (R16) -/
  clkO : Level
  /-- register 9, `DATA_O` (R16) -/
  dataO : Level
  /-- the command channel, head first (R18) -/
  cmd : List Token
  /-- `stop_i` (R22) -/
  stopI : Bool
  /-- `rtc_i` (R21) -/
  rtcI : DateTime
  /-- the reset input (R23) -/
  resetI : Bool
  /-- the levels the coming samples of `data_i` find; free values after the last (R16; log 2) -/
  dataI : List Level
  /-- the outcomes of the coming line primitives; they complete after the last (R17; log 3) -/
  lineI : List LineOutcome
  /-- what the environment does before each coming step; nothing after the last (log 8) -/
  schedule : List (List EnvAction)
  /-- the response channel, oldest first (R19) -/
  resp : List Label
  /-- the diagnostics sink, oldest first (R20) -/
  diag : List DiagItem
  /-- the trace, oldest first (R13) -/
  trace : List Event
  /-- MODEL: the operation word a caller presents, if any (log 6) -/
  call : Option OpWord
  /-- MODEL: the value the last operation returned (log 7) -/
  ret : OpResult
  /-- MODEL: samples taken so far, the index of the free samples (log 2) -/
  sampleCtr : Nat
  /-- MODEL: the index of the other free values (log 4, log 5) -/
  freeCtr : Nat
  deriving DecidableEq, Repr

/-- The block right after reset (70_reset_and_hazards.md R136). The interfaces, which reset does not touch, hold what log 8
names; the model's own fields what log 2, 4, 6 and 7 name. -/
def State.reset : State where
  par := Config.params
  flags := Config.params.initFlags
  seq := 0#6
  record := []
  unk := false
  termCause := .running
  faultInfo := 0#10
  respOvf := false
  pollT := 0#22
  clkO := true
  dataO := true
  cmd := []
  stopI := false
  rtcI := { y := 0, mo := 1, d := 1, h := 0, mi := 0 }
  resetI := false
  dataI := []
  lineI := []
  schedule := []
  resp := []
  diag := []
  trace := []
  call := none
  ret := .nothing
  sampleCtr := 0
  freeCtr := 0

/-- The model has left the rules of the spec and must fault (30_encoding.md R75, 10_state.md R39). -/
inductive Fault where
  /-- Raised by `step` on the code 3 of `SEQ[5:4]`, which the block never writes (R75; log 23). Safe: the model stops. -/
  | reservedSeq
  /-- Raised by `step` on a code of `FAULT_INFO` the block never writes (R30, R75, I14; log 32). Safe: the model stops. -/
  | reservedFaultInfo
  /-- Raised by STEP_PART, STEP_ZONE and POST on a read of `REC[i]` with `i >= REC_LEN` (R39). Safe: the model stops. -/
  | recordIndexAbsent
  /-- Raised by a line primitive that fails while SEQ names no frame exchange, so that FAULT_INFO has no FRAME code to take
  (R30, R75; log 14). Safe: the model stops. -/
  | lineFaultOutsideExchange
  deriving DecidableEq, Repr

/-- The spec gives the operation no meaning on these operands, or the model has none yet. -/
inductive Refusal where
  /-- Raised by an arm of `exec` that has no meaning yet. Safe: the model stops. -/
  | notModelled (mnemonic : String)
  /-- Raised by BUILD_DT and STEP_DT on a wall-clock value out of range: "a model refuses such a run" (R96). Safe: the model
  stops. -/
  | dateTimeOutOfRange
  /-- Raised by XCHG_FRAME on fewer than 5 bytes (R86, N31). Safe: the model stops. -/
  | frameTooShort
  /-- Raised by CKSUM on no byte (R92). Safe: the model stops. -/
  | checksumOfNothing
  /-- Raised by `step` on a presented word that is no operation (log 6). Safe: the model stops. -/
  | wordIsNoOperation
  deriving DecidableEq, Repr

end Sys2Proof.Machine
end

