-- ==== Sys2Proof/Machine/Flags.lean ====
section
/-!
DEFINITION. `FLAGS` and the StatusEncoder's computation (10_state.md R26, 42_status_response.md R100).
-/

namespace Sys2Proof.Machine

/-- Bit 7, power or backlight. -/
def flagBacklight (f : BitVec 8) : Bool := f.getLsbD 7

/-- Bit 6, fire. -/
def flagFire (f : BitVec 8) : Bool := f.getLsbD 6

/-- Bit 5, program-mode. -/
def flagProgram (f : BitVec 8) : Bool := f.getLsbD 5

/-- Bit 4, error. -/
def flagError (f : BitVec 8) : Bool := f.getLsbD 4

/-- Bit 3, bypass. -/
def flagBypass (f : BitVec 8) : Bool := f.getLsbD 3

/-- Bit 2, memory. -/
def flagMemory (f : BitVec 8) : Bool := f.getLsbD 2

/-- Bit 1, armed. -/
def flagArmed (f : BitVec 8) : Bool := f.getLsbD 1

/-- Bit 0, ready. -/
def flagReady (f : BitVec 8) : Bool := f.getLsbD 0

/-- One line of R100: OR the flag's bit in when it is set. -/
def orBit (s : Byte) (flag : Bool) (bit : Byte) : Byte := if flag then s ||| bit else s

/-- The status byte of the flags (R100). -/
def statusByte (f : BitVec 8) : Byte :=
  let s := 0x00#8
  let s := orBit s (flagBacklight f) 0x80#8
  let s := orBit s (flagFire f) 0x40#8
  let s := orBit s (flagProgram f) 0x20#8
  let s := orBit s (flagError f) 0x10#8
  let s := orBit s (flagBypass f) 0x08#8
  let s := orBit s (flagMemory f) 0x04#8
  let s := orBit s (flagArmed f) 0x02#8
  let s := orBit s (flagReady f) 0x01#8
  s

end Sys2Proof.Machine
end

