-- ==== Sys2Proof/Machine/Operands.lean ====
section
/-!
DEFINITION. The forms of the block's data: register codes, record entries, labels, tokens, FAULT_INFO, and the register view.
-/

namespace Sys2Proof.Machine

/-- A one-bit value in a byte, `0000000r`. -/
def levelByte (v : Level) : Byte := if v then 0x01#8 else 0x00#8

/-- `REC[i].rcv`; a bit entry's as R69 lays it out. -/
def Entry.rcv : Entry → Byte
  | .bit _ r => levelByte r
  | .byte _ r => r

/-- What the block sent in the entry's slot. -/
def Entry.slot : Entry → Slot
  | .bit _ _ => .bit
  | .byte b _ => .byte b

/-- The 17 bits of an entry on the diagnostics output: KIND, SENT, RCV (R69). -/
def Entry.bits : Entry → BitVec 17
  | .bit s r => 0#1 ++ levelByte s ++ levelByte r
  | .byte s r => 1#1 ++ s ++ r

/-- The byte assembled from samples taken most significant first (20_memory.md R43). -/
def assembleFrom (acc : Byte) : List Level → Byte
  | [] => acc
  | b :: bs => assembleFrom ((acc <<< 1) ||| levelByte b) bs

/-- The received byte of the eight samples of a byte slot, that of bit 7 first (R43). -/
def assemble (bs : List Level) : Byte := assembleFrom 0x00#8 bs

/-- The codes of `TERM_CAUSE` (R29). -/
def TermCause.code : TermCause → BitVec 2
  | .running => 0#2
  | .shutdownToken => 1#2
  | .stopSignal => 2#2
  | .lineFault => 3#2

/-- The cause HALT writes. -/
def haltCauseOf : HaltCause → TermCause
  | .shutdownToken => .shutdownToken
  | .stopSignal => .stopSignal

/-- The FRAME codes of `FAULT_INFO[2:0]` (R30). -/
def frameCode : FrameType → BitVec 3
  | .part => 1#3
  | .zone => 2#3
  | .lights => 3#3
  | .dt => 4#3
  | .query => 5#3

/-- The OP codes of `FAULT_INFO[9:8]` (R30). -/
def opCode : LineOp → BitVec 2
  | .setClk => 0#2
  | .setData => 1#2
  | .get => 2#2

/-- `FAULT_INFO` of a fault in frame type `t` at primitive `op` with `n` entries in the record (R30). -/
def mkFaultInfo (t : FrameType) (n : Nat) (op : LineOp) : BitVec 10 :=
  opCode op ++ BitVec.ofNat 5 n ++ frameCode t

/-- `FAULT_INFO[2:0]`. -/
def infoFrame (w : BitVec 10) : BitVec 3 := w.extractLsb' 0 3

/-- `FAULT_INFO[7:3]`. -/
def infoEntries (w : BitVec 10) : BitVec 5 := w.extractLsb' 3 5

/-- `FAULT_INFO[9:8]`. -/
def infoOp (w : BitVec 10) : BitVec 2 := w.extractLsb' 8 2

/-- Whether a code of `FAULT_INFO` is one the block never writes (R30, R75): OP 3, FRAME 6 or 7, and after a fault FRAME 0. -/
def infoReserved (afterFault : Bool) (w : BitVec 10) : Bool :=
  infoOp w = 3#2 || infoFrame w = 6#3 || infoFrame w = 7#3 || (afterFault && infoFrame w = 0#3)

/-- The frame of a step (R27, R30). -/
def stepFrame : Step → FrameType
  | .part => .part
  | .zone => .zone
  | .lights => .lights
  | .dt => .dt

/-- The frame being exchanged when SEQ has this value; none outside CYCLE and in POST, where no frame is (R27). -/
def seqFrame (w : BitVec 6) : Option FrameType :=
  match seqPhase w, seqSub w with
  | .cycle, some .main => some (stepFrame (seqStep w))
  | .cycle, some .query => some .query
  | .cycle, some .post => none
  | .cycle, none => none
  | .idle, _ => none
  | .stopped, _ => none
  | .faulted, _ => none

/-- The step after this one in a cycle (R106); none after the datetime step. -/
def nextStep : Step → Option Step
  | .part => some .zone
  | .zone => some .lights
  | .lights => some .dt
  | .dt => none

/-- The entry of BUTTON_TABLE at `a`, `MemRead(a, 1)` (R40): the three entries of R102, and the parameter's for the rest
(log 31). -/
def buttonEntry (tbl : ButtonTable) (a : Byte) : Option String :=
  if a = 0x05#8 then some "1"
  else if a = 0x28#8 then some "*"
  else if a = 0x7E#8 then none
  else tbl[a.toNat]

/-- The label of a received byte (R103). -/
def labelOf (tbl : ButtonTable) (r : Byte) : Label :=
  match buttonEntry tbl r with
  | some _ => { mapped := true, code := r }
  | none => { mapped := false, code := r }

/-- The upper-case hexadecimal digits. -/
def hexDigits : List Char := ['0', '1', '2', '3', '4', '5', '6', '7', '8', '9', 'A', 'B', 'C', 'D', 'E', 'F']

/-- The digit of `n`, for `n` below 16. -/
def hexDigit (n : Nat) : Char := (hexDigits[n]?).getD '0'

/-- `0x` and two upper-case hexadecimal digits (R71). -/
def hexByte (r : Byte) : String := String.ofList ['0', 'x', hexDigit (r.toNat / 16), hexDigit (r.toNat % 16)]

/-- The text of a label (R71): the table's, or a fallback that contains the raw byte, its other wording free (log 19). -/
def labelText (tbl : ButtonTable) (l : Label) : String :=
  match l.mapped, buttonEntry tbl l.code with
  | true, some t => t
  | true, none => Config.fallbackBefore l.code ++ hexByte l.code ++ Config.fallbackAfter l.code
  | false, _ => Config.fallbackBefore l.code ++ hexByte l.code ++ Config.fallbackAfter l.code

/-- The kind of a token (R72): exactly `SHUTDOWN`, or any other string. -/
def tokenKind (text : String) : Token := if text = "SHUTDOWN" then .shutdown else .other

/-- `REC_LEN` (R25, R36; log 18). -/
def State.recLen (s : State) : BitVec 5 := BitVec.ofNat 5 s.record.length

/-- The register view of R25: the width and the value of register `n`. -/
def State.register (s : State) : Nat → Option (Nat × Nat)
  | 0 => some (8, s.flags.toNat)
  | 1 => some (6, s.seq.toNat)
  | 2 => some (5, s.recLen.toNat)
  | 3 => some (1, s.unk.toNat)
  | 4 => some (2, s.termCause.code.toNat)
  | 5 => some (10, s.faultInfo.toNat)
  | 6 => some (1, s.respOvf.toNat)
  | 7 => some (22, s.pollT.toNat)
  | 8 => some (1, s.clkO.toNat)
  | 9 => some (1, s.dataO.toNat)
  | _ => none

end Sys2Proof.Machine
end

