-- ==== Sys2Proof/Machine/Ops.lean ====
section
/-!
DEFINITION. The named operations over the state: the pseudocode primitives of 00_scope.md R11, reset, taking a line fault, and
selecting the next operation.
-/

namespace Sys2Proof.Machine

/-- What a step of the block ends in. -/
abbrev Result := Host.Outcome State Fault Refusal

/-! ## Plain updates -/

/-- Append an event to the trace (R13). -/
def State.emit (s : State) (e : Event) : State := { s with trace := s.trace ++ [e] }

/-- Write SEQ. -/
def State.goto (s : State) (w : BitVec 6) : State := { s with seq := w }

/-- Hand a value to the caller (log 7). -/
def State.returns (s : State) (r : OpResult) : State := { s with ret := r }

/-- `RecAppend(e)` (R36). -/
def State.recAppend (s : State) (e : Entry) : State := { s with record := s.record ++ [e] }

/-- `RecClear()` (R37). -/
def State.recClear (s : State) : State := { s with record := [] }

/-- `Delay(t)`: an ordering point recorded in the trace (R14). -/
def State.delay (s : State) (t : Delay) : State := s.emit (.wait t)

/-- `Emit(RESP, l)`: into the channel, or dropped with `RESP_OVF` set when it is full (R19, R31; no event then, log 13). -/
def State.emitResp (s : State) (l : Label) : State :=
  if s.resp.length < s.par.respCap then { s with resp := s.resp ++ [l], trace := s.trace ++ [.resp l] }
  else { s with respOvf := true }

/-- `Emit(DIAG, StepDiag{STEP, REC, UNK})` (R20, R70, R116). -/
def State.emitStepDiag (s : State) (p : Step) : State :=
  { s with diag := s.diag ++ [.stepDiag p s.record s.unk], trace := s.trace ++ [.diag s.record s.unk] }

/-- Reset (70_reset_and_hazards.md R136): the registers and the record; the interfaces and the parameters stay. A call under
way ends. -/
def State.applyReset (s : State) : State :=
  { s with
    flags := s.par.initFlags, seq := 0#6, record := [], unk := false, termCause := .running, faultInfo := 0#10,
    respOvf := false, pollT := 0#22, clkO := true, dataO := true, call := none, ret := .nothing }

/-! ## Taking a line fault (60_exceptions.md R124, R125) -/

/-- `SEQ` of FAULTED. -/
def seqFaulted : BitVec 6 := mkSeq .faulted .part .main

/-- `SEQ` of STOPPED. -/
def seqStopped : BitVec 6 := mkSeq .stopped .part .main

/-- `SEQ` of IDLE. -/
def seqIdle : BitVec 6 := mkSeq .idle .part .main

/-- Fault entry in frame type `t` at primitive `op` (R124); after it both lines have unspecified levels (R125; log 4). -/
def State.takeFault (s : State) (t : FrameType) (op : LineOp) : State :=
  let info := mkFaultInfo t s.record.length op
  { s with
    faultInfo := info, termCause := .lineFault, diag := s.diag ++ [.faultDiag info s.record], seq := seqFaulted,
    trace := s.trace ++ [.fault info, .halt .lineFault], clkO := Config.freeClk s.freeCtr,
    dataO := Config.freeData s.freeCtr, freeCtr := s.freeCtr + 1, ret := .nothing }

/-! ## Line primitives (40_transceiver.md R80 to R82) -/

/-- What ends an operation part-way. -/
inductive Stop where
  /-- a line primitive failed (R124) -/
  | lineFault (op : LineOp)
  /-- reset was asserted (R23; log 17) -/
  | reset
  deriving DecidableEq, Repr

/-- An operation over the lines is done with a value, or ends part-way. -/
inductive LineRes (α : Type) where
  | done (a : α) (s : State)
  | stop (c : Stop) (s : State)

/-- Go on with the value, if there is one. -/
def LineRes.bind {α β : Type} (r : LineRes α) (k : α → State → LineRes β) : LineRes β :=
  match r with
  | .done a s => k a s
  | .stop c s => .stop c s

/-- The outcome of the line primitive that comes `n` primitives from now (R17; log 3). -/
def State.outcomeAt (s : State) (n : Nat) : LineOutcome := (s.lineI[n]?).getD .ok

/-- The level the sample that comes `n` samples from now finds (R16; log 2). -/
def State.sampleAt (s : State) (n : Nat) : Level := (s.dataI[n]?).getD (Config.freeSample (s.sampleCtr + n))

/-- The environment has answered a line primitive. -/
def State.answered (s : State) : State := { s with lineI := s.lineI.drop 1 }

/-- The clock line is driven to `v` (R80). -/
def State.driveClk (s : State) (v : Level) : State := { s with clkO := v, trace := s.trace ++ [.clk v] }

/-- The data line is driven low or released high (R81). -/
def State.driveData (s : State) (v : Level) : State := { s with dataO := v, trace := s.trace ++ [.data v] }

/-- The data line is sampled (R82). -/
def State.sampled (s : State) : State :=
  { s with dataI := s.dataI.drop 1, sampleCtr := s.sampleCtr + 1, trace := s.trace ++ [.sample (s.sampleAt 0)] }

/-- The environment's answer to a line primitive (R17). A primitive that fails takes no effect the model keeps (R126; log 29). -/
def lineAnswer (op : LineOp) (s : State) : LineRes Unit :=
  match s.outcomeAt 0 with
  | .ok => .done () s.answered
  | .fail => .stop (.lineFault op) s.answered
  | .reset => .stop .reset s.answered

/-- `LineSet(CLK, v)` (R80). -/
def lineSetClk (v : Level) (s : State) : LineRes Unit :=
  (lineAnswer .setClk s).bind fun _ s => .done () (s.driveClk v)

/-- `LineSet(DATA, v)` (R81). -/
def lineSetData (v : Level) (s : State) : LineRes Unit :=
  (lineAnswer .setData s).bind fun _ s => .done () (s.driveData v)

/-- `LineGet(DATA)` (R82). -/
def lineGet (s : State) : LineRes Level :=
  (lineAnswer .get s).bind fun _ s => .done (s.sampleAt 0) s.sampled

/-- The end of an operation over the lines: its own continuation; fault entry, when the block is in an exchange of a frame
(R124; else log 14); or reset. -/
def conclude {α : Type} (t : Option FrameType) (r : LineRes α) (k : α → State → Result) : Result :=
  match r with
  | .done a s => k a s
  | .stop .reset s => .next s.applyReset
  | .stop (.lineFault op) s =>
    match t with
    | some t => .next (s.takeFault t op)
    | none => .fault .lineFaultOutsideExchange

/-! ## Selecting the next operation (30_encoding.md R73) -/

/-- The word the block reads its next operation from: what a caller presents (log 6), else SEQ. -/
def State.fetch (s : State) : OpWord := s.call.getD (.seq s.seq)

/-- The state in which a fetched operation runs: the presented word is used up. -/
def State.fetched (s : State) : State := { s with call := none }

/-- A line fault has struck: PHASE or TERM_CAUSE says so (R27, R29). -/
def State.afterFault (s : State) : Bool := seqPhase s.seq = .faulted || s.termCause = .lineFault

/-- The fault of the model where a register holds a reserved encoding (R75, I14; log 23, log 32). -/
def State.reservedCode (s : State) : Option Fault :=
  if s.seq.extractLsb' 4 2 = 3#2 then some .reservedSeq
  else if infoReserved s.afterFault s.faultInfo then some .reservedFaultInfo
  else none

/-- What the block does where the fetched word selects no operation: it stays as it is in STOPPED and FAULTED (R135; log 15),
and the model stops on a reserved value of SEQ, its own or a presented one (R75; log 23), and on any other presented word that is
no operation (log 6). -/
def noOperation (s : State) (e : DecodeError) : Result :=
  match s.call, e with
  | _, .reservedSub => .fault .reservedSeq
  | none, .stopped => .next s
  | none, .faulted => .next s
  | none, _ => .fault .reservedSeq
  | some _, _ => .refused .wordIsNoOperation

end Sys2Proof.Machine
end

