-- ==== Sys2Proof/Machine/Exceptions.lean ====
section
/-!
DEFINITION. The meaning of FAULT (60_exceptions.md R124), and the conditions of R122 as the trace shows them.
-/

namespace Sys2Proof.Machine

/-- FAULT: fault entry in frame type `t` at primitive `op` (R124, R125; log 30). -/
def execFault (t : FrameType) (op : LineOp) (s : State) : Result := .next (s.takeFault t op)

/-- The conditions of R122. -/
inductive Condition where
  | pollTimeout
  | unknownCommand
  | unmappedButton
  | lineFault
  | externalStop
  | shutdownToken
  deriving DecidableEq, Repr

/-- The codes of R122. -/
def Condition.code : Condition → Nat
  | .pollTimeout => 1
  | .unknownCommand => 2
  | .unmappedButton => 3
  | .lineFault => 4
  | .externalStop => 5
  | .shutdownToken => 6

/-- Only the line fault is fatal (R122, R123). -/
def Condition.fatal : Condition → Bool
  | .pollTimeout => false
  | .unknownCommand => false
  | .unmappedButton => false
  | .lineFault => true
  | .externalStop => false
  | .shutdownToken => false

/-- The condition an event of the trace records, in the "records" column of R122. -/
def Event.condition : Event → Option Condition
  | .clk _ => none
  | .data _ => none
  | .sample _ => none
  | .wait _ => none
  | .pop _ => none
  | .timeout => some .pollTimeout
  | .resp l => if l.mapped then none else some .unmappedButton
  | .diag _ unknown => if unknown then some .unknownCommand else none
  | .fault _ => some .lineFault
  | .halt .running => none
  | .halt .shutdownToken => some .shutdownToken
  | .halt .stopSignal => some .externalStop
  | .halt .lineFault => none

end Sys2Proof.Machine
end

