-- ==== Sys2Proof/Machine/Codec.lean ====
section
/-!
DEFINITION. The FrameCodec (41_codec.md): checksum, datetime packing and the five builders, each as its pseudocode, and the
meanings of CKSUM and BUILD_*. Every operation writes no register, record entry or line (R91) and returns its frame.
-/

namespace Sys2Proof.Machine

/-- `CKSUM(f)` (R92): the exact sum, reduced modulo 256, appended. -/
def checksum (f : List Byte) : List Byte := f ++ [BitVec.ofNat 8 ((f.map BitVec.toNat).sum % 256)]

/-- R93. -/
def buildPart (p : KftParams) (st : Byte) : List Byte :=
  [p.cmdPartition, st, 0x01#8, Config.unknownByte, p.disabledByte]

/-- R94. -/
def buildZone (st : Byte) : List Byte :=
  checksum [Config.cmdZone, st, 0x01#8, Config.unknownByte, 0xC7#8, 0x02#8]

/-- R95. -/
def buildLights (p : KftParams) (st : Byte) : List Byte :=
  checksum [p.cmdLights, st, 0x01#8, 0x65#8, 0x00#8, 0x00#8, 0x00#8, 0x00#8]

/-- b1 of R97. -/
def dtByte1 (t : DateTime) : Byte := BitVec.ofNat 8 (((t.y / 10) <<< 4) ||| (t.y % 10))

/-- b2 of R97. -/
def dtByte2 (t : DateTime) : Byte := BitVec.ofNat 8 (((t.mo <<< 2) &&& 0x3C) ||| ((t.d &&& 0b11000) >>> 3))

/-- b3 of R97. -/
def dtByte3 (t : DateTime) : Byte := BitVec.ofNat 8 (((t.d &&& 0b00111) <<< 5) ||| (t.h &&& 0x1F))

/-- b4 of R97. -/
def dtByte4 (t : DateTime) : Byte := BitVec.ofNat 8 (t.mi <<< 2)

/-- R97. -/
def buildDt (p : KftParams) (t : DateTime) : List Byte :=
  checksum [p.cmdDatetime, dtByte1 t, dtByte2 t, dtByte3 t, dtByte4 t, 0x00#8, 0x00#8]

/-- R98. -/
def buildQuery (p : KftParams) : List Byte := p.cmdQuery :: List.replicate 11 p.placeholderByte

/-- CKSUM(f), at least one byte (R92). -/
def execCksum (f : List Byte) (s : State) : Result :=
  if f.isEmpty then .refused .checksumOfNothing else .next (s.returns (.frame (checksum f)))

/-- BUILD_PART(st) (R93). -/
def execBuildPart (st : Byte) (s : State) : Result := .next (s.returns (.frame (buildPart s.par st)))

/-- BUILD_ZONE(st) (R94). -/
def execBuildZone (st : Byte) (s : State) : Result := .next (s.returns (.frame (buildZone st)))

/-- BUILD_LIGHTS(st) (R95). -/
def execBuildLights (st : Byte) (s : State) : Result := .next (s.returns (.frame (buildLights s.par st)))

/-- BUILD_DT(t) (R97); out of range it is refused (R96). -/
def execBuildDt (t : DateTime) (s : State) : Result :=
  if t.inRange then .next (s.returns (.frame (buildDt s.par t))) else .refused .dateTimeOutOfRange

/-- BUILD_QUERY() (R98). -/
def execBuildQuery (s : State) : Result := .next (s.returns (.frame (buildQuery s.par)))

end Sys2Proof.Machine
end

