-- ==== Sys2Proof/Machine/StatusResponse.lean ====
section
/-!
DEFINITION. The meanings of ENC_STATUS and DEC_RESP (42_status_response.md). Both write no register.
-/

namespace Sys2Proof.Machine

/-- ENC_STATUS of FLAGS (R100): returns the status byte. -/
def execEncStatus (s : State) : Result := .next (s.returns (.byte (statusByte s.flags)))

/-- DEC_RESP(r) (R103): returns the label. -/
def execDecResp (r : Byte) (s : State) : Result := .next (s.returns (.label (labelOf s.par.buttonTable r)))

end Sys2Proof.Machine
end

