-- ==== Sys2Proof/Machine/Transceiver.lean ====
section
/-!
DEFINITION. The BitIOChannel (40_transceiver.md): the exchange operations as the sequences of line primitives and delays their
pseudocode gives, and the meanings of LINE_SET_CLK, LINE_SET_DATA, LINE_GET, RECV_BIT, XCHG_BYTE and XCHG_FRAME.
-/

namespace Sys2Proof.Machine

/-- A line of an exchange's pseudocode. -/
inductive Prim where
  | setClk (v : Level)
  | setData (v : Level)
  | get
  | wait (t : Delay)
  deriving DecidableEq, Repr

/-- Perform the lines in order; the value is the list of samples taken, first one first. -/
def runPrims : List Prim → State → LineRes (List Level)
  | [], s => .done [] s
  | .setClk v :: ps, s => (lineSetClk v s).bind fun _ s => runPrims ps s
  | .setData v :: ps, s => (lineSetData v s).bind fun _ s => runPrims ps s
  | .get :: ps, s => (lineGet s).bind fun b s => (runPrims ps s).bind fun bs s => .done (b :: bs) s
  | .wait t :: ps, s => runPrims ps (s.delay t)

/-- The lines of RECV_BIT (R83). -/
def recvBitPrims : List Prim :=
  [.setClk false, .setData true, .wait .setup, .get, .wait .hold, .setData true, .setClk true, .wait .settle]

/-- One bit period of a byte slot in which the block drives `v` (R84). -/
def bitPeriod (v : Level) : List Prim :=
  [.setClk false, .wait .xsetup, .get, .setData v, .wait .drive, .setClk true, .wait .clkHigh, .setData true, .wait .bitGap]

/-- The bits of a byte, bit 7 first (20_memory.md R42). -/
def bitsOf (b : Byte) : List Level :=
  [b.getLsbD 7, b.getLsbD 6, b.getLsbD 5, b.getLsbD 4, b.getLsbD 3, b.getLsbD 2, b.getLsbD 1, b.getLsbD 0]

/-- The lines of XCHG_BYTE(b) (R84): eight bit periods, bit 7 first. -/
def xchgBytePrims (b : Byte) : List Prim := (bitsOf b).flatMap bitPeriod

/-- RECV_BIT (R83): the entry's sent bit is 1 (D5), its received bit the one sample. -/
def recvBit (s : State) : LineRes Level :=
  (runPrims recvBitPrims s).bind fun bs s =>
    let r := bs.headD false
    .done r (s.recAppend (.bit true r))

/-- XCHG_BYTE(b) (R84): the received byte is assembled from the samples (R43). -/
def xchgByte (b : Byte) (s : State) : LineRes Byte :=
  (runPrims (xchgBytePrims b) s).bind fun bs s =>
    let r := assemble bs
    .done r (s.recAppend (.byte b r))

/-- The byte slots of frame bytes 1 to n-1, each followed by a gap (R86). -/
def xchgRest : List Byte → State → LineRes Unit
  | [], s => .done () s
  | b :: bs, s => (xchgByte b s).bind fun _ s => xchgRest bs (s.delay .byteGap)

/-- XCHG_FRAME(f) (R86): byte 0, gap, turnaround bit, gap, the other bytes each with a gap. -/
def xchgFrame : List Byte → State → LineRes Unit
  | [], s => .done () s
  | b :: bs, s =>
    (xchgByte b s).bind fun _ s => (recvBit (s.delay .byteGap)).bind fun _ s => xchgRest bs (s.delay .byteGap)

/-- LINE_SET_CLK(v) (R80). -/
def execLineSetClk (v : Level) (s : State) : Result :=
  conclude (seqFrame s.seq) (lineSetClk v s) fun _ s => .next (s.returns .nothing)

/-- LINE_SET_DATA(v) (R81). -/
def execLineSetData (v : Level) (s : State) : Result :=
  conclude (seqFrame s.seq) (lineSetData v s) fun _ s => .next (s.returns .nothing)

/-- LINE_GET() (R82): returns the sample. -/
def execLineGet (s : State) : Result :=
  conclude (seqFrame s.seq) (lineGet s) fun b s => .next (s.returns (.bit b))

/-- RECV_BIT() (R83): returns the sample. -/
def execRecvBit (s : State) : Result :=
  conclude (seqFrame s.seq) (recvBit s) fun b s => .next (s.returns (.bit b))

/-- XCHG_BYTE(b) (R84): returns the received byte. -/
def execXchgByte (b : Byte) (s : State) : Result :=
  conclude (seqFrame s.seq) (xchgByte b s) fun r s => .next (s.returns (.byte r))

/-- XCHG_FRAME(f), n >= 5 (R86): returns nothing. -/
def execXchgFrame (f : List Byte) (s : State) : Result :=
  if f.length < 5 then .refused .frameTooShort
  else conclude (seqFrame s.seq) (xchgFrame f s) fun _ s => .next (s.returns .nothing)

end Sys2Proof.Machine
end

