-- ==== Sys2Proof/Machine/Sequencer.lean ====
section
/-!
DEFINITION. The Sequencer (43_sequencer.md): the meanings of POLL, HALT, STEP_PART, STEP_ZONE, STEP_LIGHTS, STEP_DT, QUERY and
POST.
-/

namespace Sys2Proof.Machine

/-- HALT (R108). -/
def State.halt (s : State) (c : HaltCause) : State :=
  { s with termCause := haltCauseOf c, seq := seqStopped, trace := s.trace ++ [.halt (haltCauseOf c)] }

/-- CYCLE_START (R109); FLAGS is a free value when FLAGS_MUTABLE (log 5). -/
def State.cycleStart (s : State) : State :=
  if s.par.flagsMutable then
    { s with seq := mkSeq .cycle .part .main, flags := Config.freeFlags s.freeCtr, freeCtr := s.freeCtr + 1 }
  else s.goto (mkSeq .cycle .part .main)

/-- `Pop(CMD)` of head `k`, leaving `rest` (R18). -/
def State.popCmd (s : State) (k : Token) (rest : List Token) : State :=
  { s with cmd := rest, trace := s.trace ++ [.pop k] }

/-- One instant of Idle (R107), its tests in the order of D24. -/
def State.pollStep (s : State) : State :=
  if s.stopI then s.halt .stopSignal
  else match s.cmd with
    | .shutdown :: rest => (s.popCmd .shutdown rest).halt .shutdownToken
    | .other :: rest => (s.popCmd .other rest).cycleStart
    | [] =>
      if Config.tPoll ≤ s.pollT then (s.emit .timeout).cycleStart
      else { s with pollT := s.pollT + 1#22 }

/-- SENTINEL_TEST of step `p` (R114). -/
def sentinelTest (p : Step) (s : State) : Result :=
  match s.record[s.par.sentIdx]? with
  | none => .fault .recordIndexAbsent
  | some e => .next (
      if e.rcv = s.par.sentinel then { s with unk := true, seq := mkSeq .cycle p .query }
      else s.goto (mkSeq .cycle p .post))

/-- VOID_TEST on the received byte `r` of `REC[RESP_IDX]` (R117). -/
def State.voidTest (s : State) (r : Byte) : State :=
  if r = s.par.void then s else s.emitResp (labelOf s.par.buttonTable r)

/-- The end of POST (R116): the next step, or IDLE with POLLT 0. -/
def State.leaveStep (s : State) (p : Step) : State :=
  match nextStep p with
  | some q => s.goto (mkSeq .cycle q .main)
  | none => { s with seq := seqIdle, pollT := 0#22 }

/-- Inspect and clear (R116), given the received byte VOID_TEST reads. -/
def State.postStep (s : State) (p : Step) (r : Byte) : State :=
  let s := s.voidTest r
  let s := s.emitStepDiag p
  let s := { s.recClear with unk := false }
  s.leaveStep p

/-- POLL (R107). -/
def execPoll (s : State) : Result := .next (s.pollStep.returns .nothing)

/-- HALT(c) (R108). -/
def execHalt (c : HaltCause) (s : State) : Result := .next ((s.halt c).returns .nothing)

/-- STEP_PART (R110). -/
def execStepPart (s : State) : Result :=
  conclude (some .part) (xchgFrame (buildPart s.par (statusByte s.flags)) s) fun _ s => sentinelTest .part (s.returns .nothing)

/-- STEP_ZONE (R111). -/
def execStepZone (s : State) : Result :=
  conclude (some .zone) (xchgFrame (buildZone (statusByte s.flags)) s) fun _ s => sentinelTest .zone (s.returns .nothing)

/-- STEP_LIGHTS (R112): no sentinel test. -/
def execStepLights (s : State) : Result :=
  conclude (some .lights) (xchgFrame (buildLights s.par (statusByte s.flags)) s) fun _ s =>
    .next ((s.returns .nothing).goto (mkSeq .cycle .lights .post))

/-- STEP_DT (R113): `rtc_i` is read once, before the exchange; out of range it is refused (R96). -/
def execStepDt (s : State) : Result :=
  if s.rtcI.inRange then
    conclude (some .dt) (xchgFrame (buildDt s.par s.rtcI) s) fun _ s =>
      .next ((s.returns .nothing).goto (mkSeq .cycle .dt .post))
  else .refused .dateTimeOutOfRange

/-- QUERY in step `p` (R115), whichever step it is (R105; log 24). -/
def execQuery (p : Step) (s : State) : Result :=
  conclude (some .query) (xchgFrame (buildQuery s.par) s) fun _ s =>
    .next ((s.returns .nothing).goto (mkSeq .cycle p .post))

/-- POST in step `p` (R116). -/
def execPost (p : Step) (s : State) : Result :=
  match s.record[s.par.respIdx]? with
  | none => .fault .recordIndexAbsent
  | some e => .next ((s.postStep p e.rcv).returns .nothing)

end Sys2Proof.Machine
end

