-- ==== Sys2Proof/Machine/Dispatch.lean ====
section
/-!
DEFINITION. One arm per operation of spec/opcode_table.json: a direct call of its meaning.
-/

namespace Sys2Proof.Machine

def exec (i : Instr) (s : State) : Host.Outcome State Fault Refusal :=
  match i with
  -- transceiver, 40_transceiver.md
  | .lineSetClk v => Sys2Proof.Machine.execLineSetClk v s
  | .lineSetData v => Sys2Proof.Machine.execLineSetData v s
  | .lineGet => Sys2Proof.Machine.execLineGet s
  | .recvBit => Sys2Proof.Machine.execRecvBit s
  | .xchgByte b => Sys2Proof.Machine.execXchgByte b s
  | .xchgFrame f => Sys2Proof.Machine.execXchgFrame f s
  -- codec, 41_codec.md
  | .cksum f => Sys2Proof.Machine.execCksum f s
  | .buildPart st => Sys2Proof.Machine.execBuildPart st s
  | .buildZone st => Sys2Proof.Machine.execBuildZone st s
  | .buildLights st => Sys2Proof.Machine.execBuildLights st s
  | .buildDt t => Sys2Proof.Machine.execBuildDt t s
  | .buildQuery => Sys2Proof.Machine.execBuildQuery s
  -- status and response, 42_status_response.md
  | .encStatus => Sys2Proof.Machine.execEncStatus s
  | .decResp r => Sys2Proof.Machine.execDecResp r s
  -- sequencer, 43_sequencer.md
  | .poll => Sys2Proof.Machine.execPoll s
  | .stepPart => Sys2Proof.Machine.execStepPart s
  | .stepZone => Sys2Proof.Machine.execStepZone s
  | .stepLights => Sys2Proof.Machine.execStepLights s
  | .stepDt => Sys2Proof.Machine.execStepDt s
  | .query p => Sys2Proof.Machine.execQuery p s
  | .post p => Sys2Proof.Machine.execPost p s
  | .halt c => Sys2Proof.Machine.execHalt c s
  -- exceptions, 60_exceptions.md
  | .fault t op => Sys2Proof.Machine.execFault t op s

end Sys2Proof.Machine
end

