-- ==== Sys2Proof/Machine/Environment.lean ====
section
/-!
DEFINITION. What the environment does to the block's interfaces before a step (10_state.md R15; log 8), and the inputs the
stimulus notation of 30_encoding.md R78 stands for.
-/

namespace Sys2Proof.Machine

/-- One action of the environment. It writes no register of the block. -/
def State.act (s : State) : EnvAction → State
  | .token text => { s with cmd := s.cmd ++ [tokenKind text] }
  | .takeLabels n => { s with resp := s.resp.drop n }
  | .setStop v => { s with stopI := v }
  | .setRtc t => { s with rtcI := t }
  | .setReset v => { s with resetI := v }
  | .samples bs => { s with dataI := s.dataI ++ bs }
  | .outcomes os => { s with lineI := s.lineI ++ os }

/-- The environment's actions before this step, in order. -/
def State.arrive (s : State) : State :=
  match s.schedule with
  | [] => s
  | batch :: rest => batch.foldl State.act { s with schedule := rest }

/-- The eight levels of `RX`, most significant first (R78). -/
def rxLevels (b : Byte) : List Level :=
  [b.getLsbD 7, b.getLsbD 6, b.getLsbD 5, b.getLsbD 4, b.getLsbD 3, b.getLsbD 2, b.getLsbD 1, b.getLsbD 0]

/-- The levels a script sets for byte `k`: its first `RX` line for that byte, or 1 where it has none (R78, D30). -/
def rxOf (rx : List (Nat × Byte)) (k : Nat) : List Level :=
  match rx.lookup k with
  | some b => rxLevels b
  | none => rxLevels 0xFF#8

/-- The samples of a frame of `n` bytes under a script's `RX` lines and its `RXBIT` level (R78). -/
def scriptSamples (n : Nat) (rx : List (Nat × Byte)) (rxbit : Level) : List Level :=
  rxOf rx 0 ++ [rxbit] ++ (List.range (n - 1)).flatMap fun k => rxOf rx (k + 1)

/-- The outcomes of a script's `FAULT <frame> <k> <op>`: the first `op` of byte slot `k` fails (R78). A byte slot has 40 line
primitives, the turnaround slot after byte 0 has 5 (R83, R84). -/
def scriptFault (k : Nat) (op : LineOp) : List LineOutcome :=
  let slot := if k = 0 then 0 else 40 * k + 5
  let first := match op with
    | .setClk => 0
    | .get => 1
    | .setData => 2
  List.replicate (slot + first) .ok ++ [.fail]

/-- The entries a frame leaves when every sample is 1, the level of an idle line (R87, D30). -/
def quietEntries : List Byte → List Entry
  | [] => []
  | b :: bs => .byte b 0xFF#8 :: .bit true true :: bs.map fun c => .byte c 0xFF#8

/-- The main frame of a step, in its wire format (R58 to R61). -/
def mainFormat (s : State) : Step → List Byte
  | .part => partFormat s.par (statusByte s.flags)
  | .zone => zoneFormat (statusByte s.flags)
  | .lights => lightsFormat s.par (statusByte s.flags)
  | .dt => dtFormat s.par s.rtcI

/-- SEQ set to `w` from outside. POST is selected only after its step's frame (R116), so a record too short for POST to read
becomes that of the step's frame on an idle line (log 10). -/
def State.selectSeq (s : State) (w : BitVec 6) : State :=
  if seqPhase w = .cycle ∧ seqSub w = some .post ∧ s.record.length ≤ s.par.respIdx then
    { s with seq := w, record := quietEntries (mainFormat s (seqStep w)) }
  else s.goto w

end Sys2Proof.Machine
end

