-- ==== Sys2Proof/Machine/Step.lean ====
section
/-!
DEFINITION. One step: the environment acts, then reset or the next operation.
-/

namespace Sys2Proof.Machine

/-- One step. The environment's actions for this step arrive (log 8); while reset is asserted once they have, the block takes its
reset state (R23, R136); a reserved encoding in a register is a fault of the model (R75); else the word fetched is decoded and its
operation runs (R73). DESIGN CHOICE (log 33): the level of reset left after all the actions of the batch counts, so reset asserted
and released again within one batch is not seen. -/
def step (s : State) : Host.Outcome State Fault Refusal :=
  let s := s.arrive
  if s.resetI then .next s.applyReset
  else match s.reservedCode with
    | some r => .fault r
    | none =>
      match decode s.par s.fetch with
      | .ok i => exec i s.fetched
      | .error e => noOperation s e

/-- The state whose very next step runs the operation a word of the opcode table stands for: SEQ takes a SEQ value, a wire
format is presented as a call, and before that step the environment does nothing and reset is not asserted (log 9, log 10). -/
def State.withFetchWord (s : State) (nbits w : Nat) : State :=
  if nbits = 0 then s else
  match tableWord w with
  | .seq v => { s.selectSeq v with call := none, resetI := false, schedule := [] :: s.schedule }
  | c => { s with call := some c, resetI := false, schedule := [] :: s.schedule }

end Sys2Proof.Machine
end

