-- ==== Sys2Proof/Machine/Timing.lean ====
section
/-!
DEFINITION. Nominal times (00_scope.md R6, R14; 70_reset_and_hazards.md R149). The block's steps do not read them.
-/

namespace Sys2Proof.Machine

/-- The nominal value of a delay in µs (R6). -/
def nominal : Delay → Nat
  | .setup => 200
  | .hold => 200
  | .settle => 450
  | .xsetup => 200
  | .drive => 20
  | .clkHigh => 20
  | .bitGap => 350
  | .byteGap => 1000

/-- The earliest the next line action comes after the one before a delay (R14, D2). -/
def earliest (p : KftParams) (t : Delay) : Nat := nominal t - p.tTol

/-- The nominal µs an event of the trace stands for: those of a delay, and none else (R149). -/
def Event.nominal : Event → Nat
  | .clk _ => 0
  | .data _ => 0
  | .sample _ => 0
  | .wait t => Machine.nominal t
  | .pop _ => 0
  | .timeout => 0
  | .resp _ => 0
  | .diag _ _ => 0
  | .fault _ => 0
  | .halt _ => 0

/-- The nominal duration of a piece of trace. -/
def nominalTime (es : List Event) : Nat := (es.map Event.nominal).sum

end Sys2Proof.Machine
end

