-- ==== Sys2Proof/Safety.lean ====
section
/-!
DEFINITION. The terms claims are stated in: what an exchange leaves behind, where a line fault strikes in it, and the invariant
of the block.
-/

namespace Sys2Proof

/-- The steps with a sentinel test, the only ones in which the block's own runs send a secondary query (R106, R114). -/
def Step.hasQuery : Step → Bool
  | .part => true
  | .zone => true
  | .lights => false
  | .dt => false

end Sys2Proof

namespace Sys2Proof.Machine

/-! ## What the environment brings to an exchange -/

/-- The next `n` line primitives complete (R17). -/
def State.linesComplete (s : State) (n : Nat) : Prop := ∀ k, k < n → s.outcomeAt k = .ok

/-- The `n` samples that come after the next `k`. -/
def State.samplesFrom (s : State) (k n : Nat) : List Level := (List.range n).map fun j => s.sampleAt (k + j)

/-- The byte received in a byte slot whose first sample comes after the next `k` (R43). -/
def State.rcvFrom (s : State) (k : Nat) : Byte := assemble (s.samplesFrom k 8)

/-! ## What an exchange leaves (R83 to R88) -/

/-- The events of one bit period that drives `v` and samples `r` (R84). -/
def periodEvents (v r : Level) : List Event :=
  [.clk false, .wait .xsetup, .sample r, .data v, .wait .drive, .clk true, .wait .clkHigh, .data true, .wait .bitGap]

/-- The events of a byte slot that sends `b` and takes the samples `rs` (R84). -/
def byteEvents (b : Byte) (rs : List Level) : List Event := (List.zipWith periodEvents (bitsOf b) rs).flatten

/-- The events of a bit slot that samples `r` (R83). -/
def bitEvents (r : Level) : List Event :=
  [.clk false, .data true, .wait .setup, .sample r, .wait .hold, .data true, .clk true, .wait .settle]

/-- The entries of the byte slots of `bs`, the first of whose samples comes after the next `k`. -/
def restEntries (s : State) : Nat → List Byte → List Entry
  | _, [] => []
  | k, b :: bs => .byte b (s.rcvFrom k) :: restEntries s (k + 8) bs

/-- Their events, each slot followed by a gap (R86). -/
def restEvents (s : State) : Nat → List Byte → List Event
  | _, [] => []
  | k, b :: bs => byteEvents b (s.samplesFrom k 8) ++ [.wait .byteGap] ++ restEvents s (k + 8) bs

/-- The n + 1 entries of a frame exchange (R87). -/
def frameEntries (s : State) : List Byte → List Entry
  | [] => []
  | b :: bs => .byte b (s.rcvFrom 0) :: .bit true (s.sampleAt 8) :: restEntries s 9 bs

/-- The events of a frame exchange (R56, R86). -/
def frameEvents (s : State) : List Byte → List Event
  | [] => []
  | b :: bs =>
    byteEvents b (s.samplesFrom 0 8) ++ [.wait .byteGap] ++ bitEvents (s.sampleAt 8) ++ [.wait .byteGap] ++
      restEvents s 9 bs

/-- The state after an exchange of `m` samples and `n` line primitives that left these entries and events: both lines high
(R88), everything else as before. -/
def State.exchanged (s : State) (m n : Nat) (entries : List Entry) (events : List Event) : State :=
  { s with
    clkO := true, dataO := true, record := s.record ++ entries, trace := s.trace ++ events, dataI := s.dataI.drop m,
    sampleCtr := s.sampleCtr + m, lineI := s.lineI.drop n }

/-- The state after a complete exchange of the frame `f` (R86 to R88). -/
def State.afterFrame (s : State) (f : List Byte) : State :=
  s.exchanged (8 * f.length + 1) (40 * f.length + 5) (frameEntries s f) (frameEvents s f)

/-! ## Where a line fault strikes (R124, R126)

The line primitives of a frame exchange are counted from 0: 40 of byte 0, 5 of the turnaround slot, 40 of each further byte. -/

/-- The primitive at place `k` of a bit period (R84). -/
def periodOp (k : Nat) : LineOp :=
  if k = 0 then .setClk else if k = 1 then .get else if k = 2 then .setData else if k = 3 then .setClk else .setData

/-- The primitive at place `k` of a bit slot (R83). -/
def bitSlotOp (k : Nat) : LineOp :=
  if k = 0 then .setClk else if k = 1 then .setData else if k = 2 then .get else if k = 3 then .setData else .setClk

/-- The line primitive at place `k` of a frame exchange. -/
def frameOpAt (k : Nat) : LineOp :=
  if k < 40 then periodOp (k % 5) else if k < 45 then bitSlotOp (k - 40) else periodOp ((k - 45) % 5)

/-- The exchanges complete before place `k` of a frame exchange. -/
def entriesBefore (k : Nat) : Nat := if k < 40 then 0 else if k < 45 then 1 else 2 + (k - 45) / 40

/-- Whether an event is that of a line primitive. -/
def Event.isLine : Event → Bool
  | .clk _ => true
  | .data _ => true
  | .sample _ => true
  | .wait _ => false
  | .pop _ => false
  | .timeout => false
  | .resp _ => false
  | .diag _ _ => false
  | .fault _ => false
  | .halt _ => false

/-- The events before the `n`-th line event, counted from 0. -/
def beforeLine : Nat → List Event → List Event
  | _, [] => []
  | 0, e :: es => if e.isLine then [] else e :: beforeLine 0 es
  | n + 1, e :: es => if e.isLine then e :: beforeLine n es else e :: beforeLine (n + 1) es

/-- The frame an operation puts on the wire in this state, and its type: that of a step in its wire format (R110 to R115), or
the frame presented to XCHG_FRAME in the exchange SEQ names. None where the operation sends no frame. -/
def sendsFrame (s : State) : Instr → Option (FrameType × List Byte)
  | .stepPart => some (.part, partFormat s.par (statusByte s.flags))
  | .stepZone => some (.zone, zoneFormat (statusByte s.flags))
  | .stepLights => some (.lights, lightsFormat s.par (statusByte s.flags))
  | .stepDt => if s.rtcI.inRange then some (.dt, dtFormat s.par s.rtcI) else none
  | .query _ => some (.query, queryFormat s.par)
  | .xchgFrame f => if 5 ≤ f.length then (seqFrame s.seq).map fun t => (t, f) else none
  | .lineSetClk _ => none
  | .lineSetData _ => none
  | .lineGet => none
  | .recvBit => none
  | .xchgByte _ => none
  | .cksum _ => none
  | .buildPart _ => none
  | .buildZone _ => none
  | .buildLights _ => none
  | .buildDt _ => none
  | .buildQuery => none
  | .encStatus => none
  | .decResp _ => none
  | .poll => none
  | .post _ => none
  | .halt _ => none
  | .fault _ _ => none

/-- The level of the data output after these events, from level `v` (R16). -/
def dataLevel (v : Level) : List Event → Level
  | [] => v
  | .data w :: es => dataLevel w es
  | .clk _ :: es => dataLevel v es
  | .sample _ :: es => dataLevel v es
  | .wait _ :: es => dataLevel v es
  | .pop _ :: es => dataLevel v es
  | .timeout :: es => dataLevel v es
  | .resp _ :: es => dataLevel v es
  | .diag _ _ :: es => dataLevel v es
  | .fault _ :: es => dataLevel v es
  | .halt _ :: es => dataLevel v es

/-! ## Whole steps -/

/-- Apply `f` to the next state, if there is one. -/
def onNext (f : State → State) : Result → Result
  | .next s => .next (f s)
  | .fault r => .fault r
  | .refused r => .refused r

/-- No reset in this step: its level is low once the environment has acted, and none strikes between line primitives (R23). -/
def State.noReset (s : State) : Prop := s.arrive.resetI = false ∧ ∀ k, s.arrive.outcomeAt k ≠ .reset

/-- `t` is `s` at the start of a cycle (R109): FLAGS keep their value unless FLAGS_MUTABLE, when they take any. -/
def State.startsCycle (s t : State) : Prop :=
  (s.par.flagsMutable = false ∧ t = { s with seq := 0x01#6 }) ∨
    (s.par.flagsMutable = true ∧ ∃ f n, t = { s with seq := 0x01#6, flags := f, freeCtr := n })

/-- `t` has the registers, and the record, of R136 and everything else of `s`. -/
def State.resetTo (s t : State) : Prop :=
  t = { s with
    flags := s.par.initFlags, seq := 0x00#6, record := [], unk := false, termCause := .running, faultInfo := 0x000#10,
    respOvf := false, pollT := 0#22, clkO := true, dataO := true, call := none, ret := .nothing }

/-- `u` is `s` after fault entry in frame type `t` at primitive `op` (R124), the levels of both lines left open (R125). -/
def State.faultsTo (s u : State) (t : FrameType) (op : LineOp) : Prop :=
  u = { s with
    faultInfo := mkFaultInfo t s.record.length op, termCause := .lineFault, seq := 0x03#6,
    diag := s.diag ++ [.faultDiag (mkFaultInfo t s.record.length op) s.record],
    trace := s.trace ++ [.fault (mkFaultInfo t s.record.length op), .halt .lineFault],
    clkO := u.clkO, dataO := u.dataO, freeCtr := u.freeCtr, ret := .nothing }

/-- `s` in the middle of an exchange, when `n` line primitives have been answered: these entries and events so far. -/
def State.partWay (s t : State) (n : Nat) (entries : List Entry) (events : List Event) : Prop :=
  ∃ m, t = { s with
    record := s.record ++ entries, trace := s.trace ++ events, lineI := s.lineI.drop n, dataI := s.dataI.drop m,
    sampleCtr := s.sampleCtr + m, clkO := t.clkO, dataO := t.dataO }

/-! ## The invariant of the block -/

/-- Where the block stands: the thirteen values of SEQ it can take (R27, R105). -/
inductive Control where
  | idle
  | main (p : Step)
  | query (p : Step)
  | post (p : Step)
  | stopped
  | faulted
  deriving DecidableEq, Repr

/-- The value of SEQ there (R27). -/
def Control.seq : Control → BitVec 6
  | .idle => seqIdle
  | .main p => mkSeq .cycle p .main
  | .query p => mkSeq .cycle p .query
  | .post p => mkSeq .cycle p .post
  | .stopped => seqStopped
  | .faulted => seqFaulted

/-- Whether an entry is a byte entry. -/
def Entry.isByte : Entry → Bool
  | .bit _ _ => false
  | .byte _ _ => true

/-- The kinds of the entries of a frame of `n` bytes (R87). -/
def frameShape (n : Nat) : List Bool := true :: false :: List.replicate (n - 1) true

/-- The length of a step's main frame (R57). -/
def mainLength : Step → Nat
  | .part => 5
  | .zone => 7
  | .lights => 9
  | .dt => 8

/-- The kinds of the entries in the record. -/
def State.shape (s : State) : List Bool := s.record.map Entry.isByte

/-- Whether the sentinel stands where SENTINEL_TEST reads it (R114). -/
def State.sentinelSeen (s : State) : Prop := (s.record[s.par.sentIdx]?).map Entry.rcv = some s.par.sentinel

/-- The block runs: no cause of termination, no fault recorded, both lines high (R29, R30, R88). -/
def State.running (s : State) : Prop :=
  s.termCause = .running ∧ s.faultInfo = 0#10 ∧ s.clkO = true ∧ s.dataO = true

/-- What holds where the block stands (R28, R29, R30, R37, R87, R88, R119). -/
def State.at (s : State) : Control → Prop
  | .idle => s.running ∧ s.record = [] ∧ s.unk = false
  | .main _ => s.running ∧ s.record = [] ∧ s.unk = false
  | .query p => s.running ∧ p.hasQuery = true ∧ s.shape = frameShape (mainLength p) ∧ s.unk = true ∧ s.sentinelSeen
  | .post p =>
    s.running ∧ s.shape = frameShape (mainLength p) ++ (if s.unk then frameShape 12 else []) ∧
      (s.unk = true ↔ p.hasQuery = true ∧ s.sentinelSeen)
  | .stopped =>
    s.record = [] ∧ s.unk = false ∧ s.faultInfo = 0#10 ∧ s.clkO = true ∧ s.dataO = true ∧
      (s.termCause = .shutdownToken ∨ s.termCause = .stopSignal)
  | .faulted =>
    s.termCause = .lineFault ∧ s.record.length < Config.recCap ∧
      ∃ t op, s.faultInfo = mkFaultInfo t s.record.length op

/-- The invariant: SEQ has one of its thirteen values and the registers agree with it; the record never overflows (R38); POLLT
never passes `T_POLL` (R32); the response channel is within its capacity (R19); RESP_IDX and SENT_IDX stand among the six entries
of the shortest frame (R39); no call is presented (log 6). -/
structure State.Inv (s : State) : Prop where
  control : ∃ c : Control, s.seq = c.seq ∧ s.at c
  record : s.record.length ≤ Config.recCap
  pollT : s.pollT ≤ Config.tPoll
  resp : s.resp.length ≤ s.par.respCap
  indices : s.par.respIdx < 6 ∧ s.par.sentIdx < 6
  call : s.call = none

end Sys2Proof.Machine
end

