-- ==== Sys2Proof/Certificates/Slice0/Obligations.lean ====
section
/-!
DEFINITION. The statements for the provers. Values the spec gives (codes, literals, counts) are written out here, not taken from
the model's definitions, where that is possible. The fields `call`, `ret`, `sampleCtr` and `freeCtr` are the model's own (log 6,
log 7, log 2, log 4): a clause that sets one is the model's choice, and none rests on a value of the two counters.
-/

open Sys2Proof Sys2Proof.Machine

/-! ## Reset -/

/-- R25, R136: the registers right after reset, by the numbers of R25: width and value. -/
def Obligations.ResetRegisterValues : Prop :=
  State.reset.register 0 = some (8, State.reset.par.initFlags.toNat) ∧ State.reset.register 1 = some (6, 0) ∧
  State.reset.register 2 = some (5, 0) ∧ State.reset.register 3 = some (1, 0) ∧ State.reset.register 4 = some (2, 0) ∧
  State.reset.register 5 = some (10, 0) ∧ State.reset.register 6 = some (1, 0) ∧ State.reset.register 7 = some (22, 0) ∧
  State.reset.register 8 = some (1, 1) ∧ State.reset.register 9 = some (1, 1) ∧ State.reset.record = []

/-- R23, R136: while reset is asserted a step takes the registers and the record to their reset values from whatever state,
emits no event and leaves the channels, the sink and the parameters alone. -/
def Obligations.AssertedResetTakesResetState : Prop :=
  ∀ s : State, s.arrive.resetI = true → ∃ t, step s = .next t ∧ s.arrive.resetTo t

/-! ## Decoding and selecting -/

/-- A step runs the operation the fetched word decodes to, where no register holds a reserved encoding: the environment's actions
arrive, a presented word is used up, and nothing else stands around `exec` (log 6, log 8 are the model's choices). -/
def Obligations.StepRunsTheDecodedOperation : Prop :=
  ∀ (s : State) (i : Instr), s.arrive.resetI = false → s.arrive.reservedCode = none → decode s.arrive.par s.arrive.fetch = .ok i →
    step s = exec i { s.arrive with call := none }

/-- The SEQ words of spec/opcode_table.json and of vectors S17 and S18, and the frames of E1 and E4, decode to the operations
they stand for. -/
def Obligations.WrittenWordsDecode : Prop :=
  (decodeSeq 0x00#6 = .ok .poll ∧ decodeSeq 0x01#6 = .ok .stepPart ∧ decodeSeq 0x05#6 = .ok .stepZone ∧
    decodeSeq 0x09#6 = .ok .stepLights ∧ decodeSeq 0x0D#6 = .ok .stepDt ∧ decodeSeq 0x11#6 = .ok (.query .part) ∧
    decodeSeq 0x15#6 = .ok (.query .zone) ∧ decodeSeq 0x21#6 = .ok (.post .part) ∧
    decodeSeq 0x25#6 = .ok (.post .zone) ∧ decodeSeq 0x29#6 = .ok (.post .lights) ∧
    decodeSeq 0x2D#6 = .ok (.post .dt)) ∧
  (∀ p : KftParams, decodeFrame p [0x27#8, 0x81#8, 0x01#8, 0x91#8, 0xC7#8, 0x02#8, 0x03#8] = .ok (.buildZone 0x81#8)) ∧
  (∀ p : KftParams, p.cmdDatetime = 0xA5#8 →
    decodeFrame p [0xA5#8, 0x24#8, 0x0E#8, 0x2E#8, 0x14#8, 0x00#8, 0x00#8, 0x19#8] =
      .ok (.buildDt { y := 24, mo := 3, d := 17, h := 14, mi := 5 }))

/-- Decode inverts encode, for every operation and every operand its encoding admits. -/
def Obligations.DecodeInvertsEncode : Prop :=
  ∀ (p : KftParams) (i : Instr), i.wf = true → decode p (encode p i) = .ok i

/-- The other direction on the wire: a byte sequence or slot sequence the decoder accepts is the encoding of what it reads. -/
def Obligations.AcceptedWireWordsReencode : Prop :=
  ∀ (p : KftParams) (i : Instr),
    (∀ bs, decode p (.frame bs) = .ok i → encode p i = .frame bs) ∧
    (∀ ss, decode p (.slots ss) = .ok i → encode p i = .slots ss)

/-- R75: the code 3 of SEQ[5:4] makes the step a fault, whatever the rest of the state, a presented word included; so does that code
in a presented value of SEQ. That the test goes before everything but reset is the model's reading (log 23). -/
def Obligations.ReservedSubFaults : Prop :=
  ∀ s : State, s.arrive.resetI = false →
    (s.arrive.seq.extractLsb' 4 2 = 3#2 → step s = .fault .reservedSeq) ∧
    (∀ w : BitVec 6, s.arrive.reservedCode = none → s.arrive.call = some (.seq w) → w.extractLsb' 4 2 = 3#2 →
      step s = .fault .reservedSeq)

/-- R75, R30: a step ends in the fault reservedFaultInfo exactly where FAULT_INFO holds OP 3, FRAME 6 or 7, or, after a line fault,
FRAME 0. That 6, 7 and OP 3 count before a fault too, and what tells that one has struck, is the model's reading (log 32). -/
def Obligations.ReservedFaultInfoFaults : Prop :=
  ∀ s : State, s.arrive.resetI = false → s.arrive.seq.extractLsb' 4 2 ≠ 3#2 →
    ((s.arrive.faultInfo.extractLsb' 8 2 = 3#2 ∨ s.arrive.faultInfo.extractLsb' 0 3 = 6#3 ∨
        s.arrive.faultInfo.extractLsb' 0 3 = 7#3 ∨
        s.arrive.faultInfo.extractLsb' 0 3 = 0#3 ∧
          (s.arrive.seq.extractLsb' 0 2 = 3#2 ∨ s.arrive.termCause = .lineFault)) ↔
      step s = .fault .reservedFaultInfo)

/-- R127, R135: with reset low, no call presented and no reserved encoding, a step from STOPPED or FAULTED changes nothing but what
the environment did. -/
def Obligations.StoppedAndFaultedStay : Prop :=
  ∀ s : State, s.arrive.resetI = false → s.arrive.call = none → s.arrive.reservedCode = none → (s.arrive.seq = 0x02#6 ∨ s.arrive.seq = 0x03#6) →
    step s = .next s.arrive

/-! ## Transceiver -/

/-- R80: the level, the event and nothing else. Where the driver fails, fault entry with OP 0 (R124, R125, R30) in the frame SEQ
stands in, which is the model's reading for a primitive presented on its own (log 14), with no Diag event (log 12) and no event of
the failing primitive (log 29). -/
def Obligations.LineSetClkDrives : Prop :=
  ∀ (s : State) (v : Level),
    (s.outcomeAt 0 = .ok →
      exec (.lineSetClk v) s =
        .next { s with clkO := v, trace := s.trace ++ [.clk v], lineI := s.lineI.drop 1, ret := .nothing }) ∧
    (∀ t, seqFrame s.seq = some t → s.outcomeAt 0 = .fail →
      ∃ u, exec (.lineSetClk v) s = .next u ∧
        ({ s with lineI := s.lineI.drop 1 } : State).faultsTo u t .setClk ∧ u.faultInfo.extractLsb' 8 2 = 0#2)

/-- R81: the level, the event and nothing else. Where the driver fails, fault entry with OP 1 (R124, R125, R30) in the frame SEQ
stands in, which is the model's reading for a primitive presented on its own (log 14), with no Diag event (log 12) and no event of
the failing primitive (log 29). -/
def Obligations.LineSetDataDrives : Prop :=
  ∀ (s : State) (v : Level),
    (s.outcomeAt 0 = .ok →
      exec (.lineSetData v) s =
        .next { s with dataO := v, trace := s.trace ++ [.data v], lineI := s.lineI.drop 1, ret := .nothing }) ∧
    (∀ t, seqFrame s.seq = some t → s.outcomeAt 0 = .fail →
      ∃ u, exec (.lineSetData v) s = .next u ∧
        ({ s with lineI := s.lineI.drop 1 } : State).faultsTo u t .setData ∧ u.faultInfo.extractLsb' 8 2 = 1#2)

/-- R82: one sample, returned and traced, and no output changes. Where the driver fails, fault entry with OP 2 (R124, R125, R30) in
the frame SEQ stands in, which is the model's reading for a primitive presented on its own (log 14), with no Diag event (log 12),
no event of the failing primitive and no sample used up (log 29). -/
def Obligations.LineGetSamples : Prop :=
  ∀ s : State,
    (s.outcomeAt 0 = .ok →
      exec .lineGet s =
        .next { s with
          trace := s.trace ++ [.sample (s.sampleAt 0)], dataI := s.dataI.drop 1, sampleCtr := s.sampleCtr + 1,
          lineI := s.lineI.drop 1, ret := .bit (s.sampleAt 0) }) ∧
    (∀ t, seqFrame s.seq = some t → s.outcomeAt 0 = .fail →
      ∃ u, exec .lineGet s = .next u ∧
        ({ s with lineI := s.lineI.drop 1 } : State).faultsTo u t .get ∧ u.faultInfo.extractLsb' 8 2 = 2#2)

/-- R83: the trace, the entry, the result and both lines, and nothing else. A fault at any of its five line primitives appends no
entry (R126) and is fault entry (R124) in the frame SEQ stands in (the model's reading, log 14), with no Diag event (log 12) and no
event of the failing primitive (log 29). -/
def Obligations.RecvBitExchangesABit : Prop :=
  ∀ s : State,
    (s.linesComplete 5 →
      exec .recvBit s =
        .next { s with
          clkO := true, dataO := true, record := s.record ++ [.bit true (s.sampleAt 0)],
          trace := s.trace ++ [.clk false, .data true, .wait .setup, .sample (s.sampleAt 0), .wait .hold, .data true,
            .clk true, .wait .settle],
          dataI := s.dataI.drop 1, sampleCtr := s.sampleCtr + 1, lineI := s.lineI.drop 5,
          ret := .bit (s.sampleAt 0) }) ∧
    (∀ t k, seqFrame s.seq = some t → k < 5 → s.linesComplete k → s.outcomeAt k = .fail →
      ∃ v u, exec .recvBit s = .next u ∧
        s.partWay v (k + 1) [] (beforeLine k [.clk false, .data true, .wait .setup, .sample (s.sampleAt 0), .wait .hold,
          .data true, .clk true, .wait .settle]) ∧
        v.faultsTo u t (bitSlotOp k))

/-- R84, R43: bit k of the received byte is the sample of the period that drives bit k; the eight periods drive bits 7 to 0; both
lines end high; nothing else changes. A fault at any of the 40 line primitives appends no entry (R126) and is fault entry (R124) in
the frame SEQ stands in (the model's reading, log 14), with no Diag event (log 12) and no event of the failing primitive (log 29). -/
def Obligations.XchgByteExchangesAByte : Prop :=
  ∀ (s : State) (b : Byte),
    (s.linesComplete 40 → ∃ r : Byte,
      exec (.xchgByte b) s =
        .next { s with
          clkO := true, dataO := true, record := s.record ++ [.byte b r],
          trace := s.trace ++ (List.range 8).flatMap (fun j =>
            [.clk false, .wait .xsetup, .sample (s.sampleAt j), .data (b.getLsbD (7 - j)), .wait .drive, .clk true,
              .wait .clkHigh, .data true, .wait .bitGap]),
          dataI := s.dataI.drop 8, sampleCtr := s.sampleCtr + 8, lineI := s.lineI.drop 40, ret := .byte r } ∧
      ∀ k, k < 8 → r.getLsbD k = s.sampleAt (7 - k)) ∧
    (∀ t k, seqFrame s.seq = some t → k < 40 → s.linesComplete k → s.outcomeAt k = .fail →
      ∃ v u, exec (.xchgByte b) s = .next u ∧
        s.partWay v (k + 1) [] (beforeLine k ((List.range 8).flatMap (fun j =>
          [.clk false, .wait .xsetup, .sample (s.sampleAt j), .data (b.getLsbD (7 - j)), .wait .drive, .clk true,
            .wait .clkHigh, .data true, .wait .bitGap]))) ∧
        v.faultsTo u t (periodOp (k % 5)))

/-- R87, R86: a complete frame of n bytes appends n + 1 entries to whatever the record holds: byte 0, the turnaround bit, bytes 1
to n - 1, each with what its own samples gave; its events are those of the exchange shape; both lines end high; nothing else
changes. -/
def Obligations.XchgFrameAppendsEntries : Prop :=
  ∀ (s : State) (f : List Byte), 5 ≤ f.length → s.linesComplete (40 * f.length + 5) → ∃ es : List Entry,
    exec (.xchgFrame f) s =
      .next { s with
        clkO := true, dataO := true, record := s.record ++ es, trace := s.trace ++ frameEvents s f,
        dataI := s.dataI.drop (8 * f.length + 1), sampleCtr := s.sampleCtr + (8 * f.length + 1),
        lineI := s.lineI.drop (40 * f.length + 5), ret := .nothing } ∧
    es.length = f.length + 1 ∧
    (∀ b, f[0]? = some b → es[0]? = some (.byte b (s.rcvFrom 0))) ∧
    es[1]? = some (.bit true (s.sampleAt 8)) ∧
    ∀ k b, 1 ≤ k → f[k]? = some b → es[k + 1]? = some (.byte b (s.rcvFrom (8 * k + 1)))

/-- R88: both lines are high after every complete RECV_BIT, XCHG_BYTE and XCHG_FRAME, whatever they were. -/
def Obligations.CompleteExchangesEndHigh : Prop :=
  ∀ s : State,
    (s.linesComplete 5 → ∃ t, exec .recvBit s = .next t ∧ t.clkO = true ∧ t.dataO = true) ∧
    (∀ b, s.linesComplete 40 → ∃ t, exec (.xchgByte b) s = .next t ∧ t.clkO = true ∧ t.dataO = true) ∧
    (∀ f, 5 ≤ f.length → s.linesComplete (40 * f.length + 5) →
      ∃ t, exec (.xchgFrame f) s = .next t ∧ t.clkO = true ∧ t.dataO = true)

/-- R85: in a byte exchange that starts with the data output high, every sample is taken while it is high. -/
def Obligations.SamplesAreTakenWithDataHigh : Prop :=
  ∀ (s t : State) (b : Byte) (es before after : List Event) (r : Level), s.dataO = true → s.linesComplete 40 →
    exec (.xchgByte b) s = .next t → t.trace = s.trace ++ es → es = before ++ .sample r :: after →
    dataLevel s.dataO before = true

/-- R149: the delays of a complete frame exchange of n bytes add up to n × 4720 + 850 + (n + 1) × 1000 µs. -/
def Obligations.FrameExchangeNominalTime : Prop :=
  ∀ (s t : State) (f : List Byte) (es : List Event), 5 ≤ f.length → s.linesComplete (40 * f.length + 5) →
    exec (.xchgFrame f) s = .next t → t.trace = s.trace ++ es →
    nominalTime es = f.length * 4720 + 850 + (f.length + 1) * 1000

/-! ## Codec -/

/-- R92: the checksum is the sum of the bytes modulo 256, appended; no other state changes. -/
def Obligations.CksumAppendsSum : Prop :=
  ∀ (s : State) (f : List Byte), f ≠ [] → ∃ c : Byte,
    exec (.cksum f) s = .next { s with ret := .frame (f ++ [c]) } ∧ c.toNat = (f.map BitVec.toNat).sum % 256

/-- R93. -/
def Obligations.BuildPartFrame : Prop :=
  ∀ (s : State) (st : Byte),
    exec (.buildPart st) s =
      .next { s with ret := .frame [s.par.cmdPartition, st, 0x01#8, 0x91#8, s.par.disabledByte] }

/-- R94. -/
def Obligations.BuildZoneFrame : Prop :=
  ∀ (s : State) (st : Byte),
    exec (.buildZone st) s =
      .next { s with ret := .frame [0x27#8, st, 0x01#8, 0x91#8, 0xC7#8, 0x02#8, st + 0x82#8] }

/-- R95. -/
def Obligations.BuildLightsFrame : Prop :=
  ∀ (s : State) (st : Byte),
    exec (.buildLights st) s =
      .next { s with ret := .frame [s.par.cmdLights, st, 0x01#8, 0x65#8, 0x00#8, 0x00#8, 0x00#8, 0x00#8,
        s.par.cmdLights + st + 0x66#8] }

/-- R97, R67: the four packed bytes as numbers, the two zeros and the checksum. -/
def Obligations.BuildDtFrame : Prop :=
  ∀ (s : State) (t : DateTime), t.inRange = true → ∃ b1 b2 b3 b4 : Byte,
    exec (.buildDt t) s =
      .next { s with ret := .frame [s.par.cmdDatetime, b1, b2, b3, b4, 0x00#8, 0x00#8,
        s.par.cmdDatetime + b1 + b2 + b3 + b4] } ∧
    b1.toNat = 16 * (t.y / 10) + t.y % 10 ∧ b2.toNat = 4 * t.mo + t.d / 8 ∧ b3.toNat = 32 * (t.d % 8) + t.h ∧
    b4.toNat = 4 * t.mi

/-- R68: the packing is reversible, by the bit fields R68 gives. -/
def Obligations.DatetimePackingReversible : Prop :=
  ∀ (s : State) (t : DateTime), t.inRange = true → ∃ c b1 b2 b3 b4 x : Byte,
    exec (.buildDt t) s = .next { s with ret := .frame [c, b1, b2, b3, b4, 0x00#8, 0x00#8, x] } ∧
    t.y = 10 * (b1.extractLsb' 4 4).toNat + (b1.extractLsb' 0 4).toNat ∧ t.mo = (b2.extractLsb' 2 4).toNat ∧
    t.d = 8 * (b2.extractLsb' 0 2).toNat + (b3.extractLsb' 5 3).toNat ∧ t.h = (b3.extractLsb' 0 5).toNat ∧
    t.mi = (b4.extractLsb' 2 6).toNat

/-- R98: the same twelve bytes whatever the flags, the clock and what was received. -/
def Obligations.BuildQueryFrame : Prop :=
  ∀ s : State,
    exec .buildQuery s = .next { s with ret := .frame (s.par.cmdQuery :: List.replicate 11 s.par.placeholderByte) }

/-- R96: BUILD_DT and STEP_DT refuse a date or time exactly when a field is outside its range; no calendar is checked. -/
def Obligations.DatetimeOutOfRangeRefused : Prop :=
  ∀ (s : State) (t : DateTime),
    (exec (.buildDt t) s = .refused .dateTimeOutOfRange ↔
      (99 < t.y ∨ t.mo < 1 ∨ 12 < t.mo ∨ t.d < 1 ∨ 31 < t.d ∨ 23 < t.h ∨ 59 < t.mi)) ∧
    (exec .stepDt { s with rtcI := t } = .refused .dateTimeOutOfRange ↔
      (99 < t.y ∨ t.mo < 1 ∨ 12 < t.mo ∨ t.d < 1 ∨ 31 < t.d ∨ 23 < t.h ∨ 59 < t.mi))

/-- The operand forms the rules give no meaning stop by name (the model's choice, log 28). -/
def Obligations.OperandsWithoutMeaningRefused : Prop :=
  ∀ s : State,
    (∀ f : List Byte, f.length < 5 → exec (.xchgFrame f) s = .refused .frameTooShort) ∧
    exec (.cksum []) s = .refused .checksumOfNothing

/-! ## Status and response -/

/-- R100, R101: bit k of the status byte is the flag that owns bit k; no register changes. -/
def Obligations.EncStatusOwnsBits : Prop :=
  ∀ s : State, ∃ b : Byte, exec .encStatus s = .next { s with ret := .byte b } ∧
    b.getLsbD 7 = flagBacklight s.flags ∧ b.getLsbD 6 = flagFire s.flags ∧ b.getLsbD 5 = flagProgram s.flags ∧
    b.getLsbD 4 = flagError s.flags ∧ b.getLsbD 3 = flagBypass s.flags ∧ b.getLsbD 2 = flagMemory s.flags ∧
    b.getLsbD 1 = flagArmed s.flags ∧ b.getLsbD 0 = flagReady s.flags ∧ b = s.flags

/-- R40, R102, R103: the label carries the code; it is mapped exactly when the table has an entry; 0x05 and 0x28 are mapped to "1"
and "*", and 0x7E is not mapped, in every configuration; at every other code the entry is that of the parameter BUTTON_TABLE. -/
def Obligations.DecRespLooksUp : Prop :=
  ∀ (s : State) (r : Byte), ∃ m : Bool,
    exec (.decResp r) s = .next { s with ret := .label { mapped := m, code := r } } ∧
    (m = true ↔ ∃ text, buttonEntry s.par.buttonTable r = some text) ∧
    (r = 0x05#8 → m = true ∧ labelText s.par.buttonTable { mapped := m, code := r } = "1") ∧
    (r = 0x28#8 → m = true ∧ labelText s.par.buttonTable { mapped := m, code := r } = "*") ∧
    (r = 0x7E#8 → m = false) ∧
    (r ≠ 0x05#8 → r ≠ 0x28#8 → r ≠ 0x7E#8 →
      (m = true ↔ ∃ text, s.par.buttonTable[r.toNat] = some text) ∧
      ∀ text, s.par.buttonTable[r.toNat] = some text →
        labelText s.par.buttonTable { mapped := m, code := r } = text)

/-- R71: the text of a mapped label is the table's: the parameter BUTTON_TABLE's, but for the codes R102 fixes; that of an unmapped one contains `0x` and the code in two upper-case
hexadecimal digits, and what stands around them is free (log 19). -/
def Obligations.LabelTextIsTableOrCode : Prop :=
  ∀ (tbl : ButtonTable) (r : Byte),
    (∀ text, buttonEntry tbl r = some text → labelText tbl { mapped := true, code := r } = text) ∧
    (∀ text, r = 0x05#8 ∧ text = "1" ∨ r = 0x28#8 ∧ text = "*" ∨
        r ≠ 0x05#8 ∧ r ≠ 0x28#8 ∧ r ≠ 0x7E#8 ∧ tbl[r.toNat] = some text →
      labelText tbl { mapped := true, code := r } = text) ∧
    ∃ before after : String, ∃ hi lo : Char,
      labelText tbl { mapped := false, code := r } = before ++ String.ofList ['0', 'x', hi, lo] ++ after ∧
      ['0', '1', '2', '3', '4', '5', '6', '7', '8', '9', 'A', 'B', 'C', 'D', 'E', 'F'][r.toNat / 16]? = some hi ∧
      ['0', '1', '2', '3', '4', '5', '6', '7', '8', '9', 'A', 'B', 'C', 'D', 'E', 'F'][r.toNat % 16]? = some lo

/-- R72: only the exact string is a SHUTDOWN token. -/
def Obligations.OnlyExactShutdownIsShutdown : Prop :=
  ∀ (s : State) (text : String), ∃ k : Token, (s.act (.token text)).cmd = s.cmd ++ [k] ∧
    (k = .shutdown ↔ text = "SHUTDOWN")

/-! ## Sequencer -/

/-- R107, R108, R129: one instant of Idle, its tests in order. -/
def Obligations.PollTestsInOrder : Prop :=
  ∀ s : State, ∃ t, exec .poll s = .next t ∧
    (s.stopI = true → t = { s with
      termCause := .stopSignal, seq := 0x02#6, trace := s.trace ++ [.halt .stopSignal], ret := .nothing }) ∧
    (∀ rest, s.stopI = false → s.cmd = .shutdown :: rest → t = { s with
      cmd := rest, termCause := .shutdownToken, seq := 0x02#6,
      trace := s.trace ++ [.pop .shutdown, .halt .shutdownToken], ret := .nothing }) ∧
    (∀ rest, s.stopI = false → s.cmd = .other :: rest →
      ({ s with cmd := rest, trace := s.trace ++ [.pop .other], ret := .nothing } : State).startsCycle t) ∧
    (s.stopI = false → s.cmd = [] → 3000000 ≤ s.pollT.toNat →
      ({ s with trace := s.trace ++ [.timeout], ret := .nothing } : State).startsCycle t) ∧
    (s.stopI = false → s.cmd = [] → s.pollT.toNat < 3000000 →
      ∃ p : BitVec 22, p.toNat = s.pollT.toNat + 1 ∧ t = { s with pollT := p, ret := .nothing })

/-- R107, R131: with nothing to read, Idle waits until POLLT is `T_POLL`, one µs a step (log 16), and then starts a cycle with a
Timeout in the trace. -/
def Obligations.IdleWaitRunsOut : Prop :=
  ∀ s : State, s.seq = 0x00#6 → s.call = none → s.schedule = [] → s.resetI = false → s.stopI = false → s.cmd = [] →
    s.reservedCode = none → s.pollT.toNat ≤ 3000000 →
    (∀ n, s.pollT.toNat + n ≤ 3000000 → ∃ t : State, core.run n s = .next t ∧ t.pollT.toNat = s.pollT.toNat + n ∧
      t.seq = 0x00#6 ∧ t.trace = s.trace) ∧
    ∃ t : State, core.run (3000000 - s.pollT.toNat + 1) s = .next t ∧ t.seq = 0x01#6 ∧ t.trace = s.trace ++ [.timeout]

/-- R108. -/
def Obligations.HaltWritesCause : Prop :=
  ∀ s : State,
    exec (.halt .shutdownToken) s = .next { s with
      termCause := .shutdownToken, seq := 0x02#6, trace := s.trace ++ [.halt .shutdownToken], ret := .nothing } ∧
    exec (.halt .stopSignal) s = .next { s with
      termCause := .stopSignal, seq := 0x02#6, trace := s.trace ++ [.halt .stopSignal], ret := .nothing }

/-- R110, R114: the partition-status frame, then the sentinel test on the entry SENT_IDX of the record with the frame's entries
appended; from an empty record and with SENT_IDX = 4 (R6) that is the exchange of frame byte 3, whose samples come after 25
others. -/
def Obligations.StepPartSendsAndTests : Prop :=
  ∀ (s : State) (f : List Byte) (e : Entry),
    f = [s.par.cmdPartition, statusByte s.flags, 0x01#8, 0x91#8, s.par.disabledByte] → s.linesComplete 205 →
    (s.record ++ frameEntries s f)[s.par.sentIdx]? = some e →
    exec .stepPart s = .next { s.afterFrame f with
      ret := .nothing, unk := s.unk || decide (e.rcv = s.par.sentinel),
      seq := if e.rcv = s.par.sentinel then 0x11#6 else 0x21#6 } ∧
    (s.record = [] → s.par.sentIdx = 4 → e.rcv = s.rcvFrom 25)

/-- R111, R114: the zone-status frame, then the same test. -/
def Obligations.StepZoneSendsAndTests : Prop :=
  ∀ (s : State) (f : List Byte) (e : Entry),
    f = [0x27#8, statusByte s.flags, 0x01#8, 0x91#8, 0xC7#8, 0x02#8, statusByte s.flags + 0x82#8] → s.linesComplete 285 →
    (s.record ++ frameEntries s f)[s.par.sentIdx]? = some e →
    exec .stepZone s = .next { s.afterFrame f with
      ret := .nothing, unk := s.unk || decide (e.rcv = s.par.sentinel),
      seq := if e.rcv = s.par.sentinel then 0x15#6 else 0x25#6 } ∧
    (s.record = [] → s.par.sentIdx = 4 → e.rcv = s.rcvFrom 25)

/-- R112: the zone-lights frame; no sentinel test. -/
def Obligations.StepLightsSends : Prop :=
  ∀ s : State, s.linesComplete 365 →
    exec .stepLights s = .next { s.afterFrame [s.par.cmdLights, statusByte s.flags, 0x01#8, 0x65#8, 0x00#8, 0x00#8, 0x00#8,
        0x00#8, s.par.cmdLights + statusByte s.flags + 0x66#8] with
      ret := .nothing, seq := 0x29#6 }

/-- R113: the datetime frame of the wall clock at the start; no sentinel test. -/
def Obligations.StepDtSends : Prop :=
  ∀ s : State, s.rtcI.inRange = true → s.linesComplete 325 → ∃ b1 b2 b3 b4 : Byte,
    exec .stepDt s = .next { s.afterFrame [s.par.cmdDatetime, b1, b2, b3, b4, 0x00#8, 0x00#8,
        s.par.cmdDatetime + b1 + b2 + b3 + b4] with
      ret := .nothing, seq := 0x2D#6 } ∧
    b1.toNat = 16 * (s.rtcI.y / 10) + s.rtcI.y % 10 ∧ b2.toNat = 4 * s.rtcI.mo + s.rtcI.d / 8 ∧
    b3.toNat = 32 * (s.rtcI.d % 8) + s.rtcI.h ∧ b4.toNat = 4 * s.rtcI.mi

/-- R115, R105: the query frame, then POST of the same step, whichever step it is (log 24); its received bytes are not tested. -/
def Obligations.QuerySends : Prop :=
  ∀ (s : State) (p : Step), s.linesComplete 485 →
    exec (.query p) s = .next { s.afterFrame (s.par.cmdQuery :: List.replicate 11 s.par.placeholderByte) with
      ret := .nothing,
      seq := match p with
        | .part => 0x21#6
        | .zone => 0x25#6
        | .lights => 0x29#6
        | .dt => 0x2D#6 }

/-- R73, R105: SUB = QUERY in a cycle selects QUERY in every step, the zone-lights and datetime steps included, where R115 selects it
in the first two only and the block's own runs never stand; that it runs there is the model's reading (log 24). -/
def Obligations.QuerySelectedInEveryStep : Prop :=
  ∀ (s : State) (p : Step), s.arrive.resetI = false → s.arrive.call = none → s.arrive.reservedCode = none →
    (s.arrive.seq = match p with
      | .part => 0x11#6
      | .zone => 0x15#6
      | .lights => 0x19#6
      | .dt => 0x1D#6) →
    s.arrive.linesComplete 485 →
    step s = .next { s.arrive.afterFrame (s.arrive.par.cmdQuery :: List.replicate 11 s.arrive.par.placeholderByte) with
      ret := .nothing,
      seq := match p with
        | .part => 0x21#6
        | .zone => 0x25#6
        | .lights => 0x29#6
        | .dt => 0x2D#6 }

/-- R116, R117: the void test on the entry RESP_IDX, the diagnostics item, the clearing, and the next step. That a label dropped from
a full channel leaves no Resp event in the trace is the model's reading (log 13). -/
def Obligations.PostInspectsAndClears : Prop :=
  ∀ (s : State) (p : Step) (e : Entry), s.record[s.par.respIdx]? = some e →
    exec (.post p) s = .next { s with
      resp := if e.rcv ≠ s.par.void ∧ s.resp.length < s.par.respCap then
        s.resp ++ [labelOf s.par.buttonTable e.rcv] else s.resp,
      respOvf := s.respOvf || (decide (e.rcv ≠ s.par.void) && decide (s.par.respCap ≤ s.resp.length)),
      diag := s.diag ++ [.stepDiag p s.record s.unk],
      trace := s.trace ++ (if e.rcv ≠ s.par.void ∧ s.resp.length < s.par.respCap then
        [.resp (labelOf s.par.buttonTable e.rcv)] else []) ++ [.diag s.record s.unk],
      record := [], unk := false,
      seq := match p with
        | .part => 0x05#6
        | .zone => 0x09#6
        | .lights => 0x0D#6
        | .dt => 0x00#6,
      pollT := if p = .dt then 0#22 else s.pollT,
      ret := .nothing }

/-- R39: POST faults where the entry RESP_IDX is absent, STEP_PART and STEP_ZONE where the entry SENT_IDX is absent after the frame's
6 or 8 entries. -/
def Obligations.AbsentEntryFaults : Prop :=
  ∀ s : State,
    (∀ p : Step, s.record.length ≤ s.par.respIdx → exec (.post p) s = .fault .recordIndexAbsent) ∧
    (s.record.length + 6 ≤ s.par.sentIdx → s.linesComplete 205 → exec .stepPart s = .fault .recordIndexAbsent) ∧
    (s.record.length + 8 ≤ s.par.sentIdx → s.linesComplete 285 → exec .stepZone s = .fault .recordIndexAbsent)

/-- R106, R119: from Idle with a token waiting and every line primitive complete, under a quiet environment (`schedule` empty), one cycle runs the four steps in order, 9
operations and one more for each query; each step leaves one diagnostics item, whose record is its own frame and the query's
after it exactly when, in the first two steps, the entry SENT_IDX (the fifth, R6) received the sentinel; then the block is in Idle with an empty
record. -/
def Obligations.CycleRunsFourSteps : Prop :=
  ∀ (s : State) (rest : List Token), s.seq = 0x00#6 → s.call = none → s.record = [] → s.unk = false → s.schedule = [] →
    s.resetI = false → (∀ k, s.outcomeAt k = .ok) → s.stopI = false → s.cmd = .other :: rest → s.rtcI.inRange = true →
    s.reservedCode = none → s.par.respIdx < 6 → s.par.sentIdx < 6 →
    ∃ (t : State) (r1 r2 r3 r4 : List Entry) (u1 u2 : Bool),
      core.run (9 + u1.toNat + u2.toNat) s = .next t ∧
      t.seq = 0x00#6 ∧ t.record = [] ∧ t.unk = false ∧ t.pollT = 0#22 ∧ t.cmd = rest ∧
      (s.par.flagsMutable = false → t.flags = s.flags) ∧
      t.diag = s.diag ++ [.stepDiag .part r1 u1, .stepDiag .zone r2 u2, .stepDiag .lights r3 false, .stepDiag .dt r4 false] ∧
      r1.map Entry.slot = frameSlots (partFormat s.par (statusByte t.flags)) ++
        (if u1 then frameSlots (queryFormat s.par) else []) ∧
      r2.map Entry.slot = frameSlots (zoneFormat (statusByte t.flags)) ++
        (if u2 then frameSlots (queryFormat s.par) else []) ∧
      r3.map Entry.slot = frameSlots (lightsFormat s.par (statusByte t.flags)) ∧
      r4.map Entry.slot = frameSlots (dtFormat s.par s.rtcI) ∧
      (u1 = true ↔ (r1[s.par.sentIdx]?).map Entry.rcv = some s.par.sentinel) ∧
      (u2 = true ↔ (r2[s.par.sentIdx]?).map Entry.rcv = some s.par.sentinel)

/-! ## The line fault, and reset inside an operation -/

/-- R124, R30: fault entry writes FAULT_INFO, TERM_CAUSE and SEQ and delivers the fault item; the levels of the lines are left
open (R125, log 4); the rest of the state is as before; the three fields of FAULT_INFO stand where R30 puts them. -/
def Obligations.FaultEntry : Prop :=
  ∀ (s : State) (t : FrameType) (op : LineOp), s.record.length < 32 → ∃ u : State,
    exec (.fault t op) s = .next u ∧ s.faultsTo u t op ∧
    (u.faultInfo.extractLsb' 3 5).toNat = s.record.length ∧
    u.faultInfo.extractLsb' 0 3 = (match t with
      | .part => 1#3
      | .zone => 2#3
      | .lights => 3#3
      | .dt => 4#3
      | .query => 5#3) ∧
    u.faultInfo.extractLsb' 8 2 = (match op with
      | .setClk => 0#2
      | .setData => 1#2
      | .get => 2#2)

/-- R124, R126: whichever line primitive of a frame fails first, the block enters FAULTED with the frame, the entries and the
primitive in FAULT_INFO; every exchange complete before it has its entry, the interrupted one has none; every event before it is
in the trace and no line event after it; no label, no step item and no token read; nothing else changes. That there is no Diag event
(log 12), that SEQ names the frame of a presented XCHG_FRAME (log 14) and that the failing primitive leaves no event (log 29) are
the model's readings; how many samples are used up is left open. -/
def Obligations.LineFaultEndsTheFrame : Prop :=
  ∀ (s : State) (i : Instr) (t : FrameType) (f : List Byte) (k : Nat), sendsFrame s i = some (t, f) →
    k < 40 * f.length + 5 → s.linesComplete k → s.outcomeAt k = .fail →
    ∃ v u : State, exec i s = .next u ∧
      s.partWay v (k + 1)
        ((frameEntries s f).take (if k < 40 then 0 else if k < 45 then 1 else 2 + (k - 45) / 40))
        (beforeLine k (frameEvents s f)) ∧
      v.faultsTo u t (frameOpAt k)

/-- A primitive that fails outside every frame exchange, whichever of an operation's line primitives it is, has no FRAME code to
record, and the model stops (the model's reading of R30 and R75, log 14). -/
def Obligations.LineFaultOutsideExchangeStops : Prop :=
  ∀ (s : State) (k : Nat), seqFrame s.seq = none → s.linesComplete k → s.outcomeAt k = .fail →
    (k = 0 → (∀ v, exec (.lineSetClk v) s = .fault .lineFaultOutsideExchange) ∧
      (∀ v, exec (.lineSetData v) s = .fault .lineFaultOutsideExchange) ∧
      exec .lineGet s = .fault .lineFaultOutsideExchange) ∧
    (k < 5 → exec .recvBit s = .fault .lineFaultOutsideExchange) ∧
    (k < 40 → ∀ b, exec (.xchgByte b) s = .fault .lineFaultOutsideExchange) ∧
    (∀ f : List Byte, 5 ≤ f.length → k < 40 * f.length + 5 → exec (.xchgFrame f) s = .fault .lineFaultOutsideExchange)

/-- R23: reset asserted inside an operation ends it at once in the reset state; what went before stays in the trace (log 17 says
where it can land). First every operation that sends a frame, then the transceiver's operations wherever SEQ stands. -/
def Obligations.ResetInsideFrame : Prop :=
  ∀ (s : State) (k : Nat), s.linesComplete k → s.outcomeAt k = .reset →
    (∀ (i : Instr) (t : FrameType) (f : List Byte), sendsFrame s i = some (t, f) → k < 40 * f.length + 5 →
      ∃ v u : State, exec i s = .next u ∧
        s.partWay v (k + 1)
          ((frameEntries s f).take (if k < 40 then 0 else if k < 45 then 1 else 2 + (k - 45) / 40))
          (beforeLine k (frameEvents s f)) ∧
        v.resetTo u) ∧
    (∀ f : List Byte, 5 ≤ f.length → k < 40 * f.length + 5 →
      ∃ v u : State, exec (.xchgFrame f) s = .next u ∧
        s.partWay v (k + 1)
          ((frameEntries s f).take (if k < 40 then 0 else if k < 45 then 1 else 2 + (k - 45) / 40))
          (beforeLine k (frameEvents s f)) ∧
        v.resetTo u) ∧
    (∀ b : Byte, k < 40 → ∃ v u : State, exec (.xchgByte b) s = .next u ∧
      s.partWay v (k + 1) [] (beforeLine k (byteEvents b (s.samplesFrom 0 8))) ∧ v.resetTo u) ∧
    (k < 5 → ∃ v u : State, exec .recvBit s = .next u ∧
      s.partWay v (k + 1) [] (beforeLine k (bitEvents (s.sampleAt 0))) ∧ v.resetTo u) ∧
    (∀ i : Instr, k = 0 → (∃ v, i = .lineSetClk v) ∨ (∃ v, i = .lineSetData v) ∨ i = .lineGet →
      ∃ u : State, exec i s = .next u ∧ ({ s with lineI := s.lineI.drop 1 } : State).resetTo u)

/-! ## The whole machine -/

/-- The invariant holds at reset. -/
def Obligations.InvariantAtReset : Prop := State.reset.Inv

/-- Every step keeps the invariant, whatever the environment does. -/
def Obligations.InvariantKeptByStep : Prop := ∀ s t : State, s.Inv → step s = .next t → t.Inv

/-- R39, R75, R123: from the invariant no step faults, and the one refusal is that of a wall clock out of range in STEP_DT. -/
def Obligations.InvariantStepNeverFaults : Prop :=
  ∀ s : State, s.Inv →
    (∀ r, step s ≠ .fault r) ∧
    (∀ r, step s = .refused r →
      r = .dateTimeOutOfRange ∧ s.arrive.seq = 0x0D#6 ∧ s.arrive.rtcI.inRange = false)

/-- R118: no operation but POLL reads the command channel or `stop_i`, and none but STEP_DT reads `rtc_i`: whatever they hold, it
ends in the same way, and they are as before. -/
def Obligations.OnlyPollReadsCommandsAndStop : Prop :=
  ∀ (s : State) (i : Instr),
    (∀ (c : List Token) (b : Bool), i ≠ .poll →
      exec i { s with cmd := c, stopI := b } = onNext (fun t => { t with cmd := c, stopI := b }) (exec i s)) ∧
    (∀ d : DateTime, i ≠ .stepDt → exec i { s with rtcI := d } = onNext (fun t => { t with rtcI := d }) (exec i s))

/-- The interfaces an operation only reads, and the parameters, are as before; what it emitted is appended; only POLL takes from
the command channel, at most its head. -/
def Obligations.OperationsFrameTheInterfaces : Prop :=
  ∀ (s t : State) (i : Instr), exec i s = .next t →
    t.par = s.par ∧ t.stopI = s.stopI ∧ t.rtcI = s.rtcI ∧ t.resetI = s.resetI ∧ t.schedule = s.schedule ∧
    (∀ a, buttonEntry t.par.buttonTable a = buttonEntry s.par.buttonTable a) ∧
    s.resp <+: t.resp ∧ s.diag <+: t.diag ∧ s.trace <+: t.trace ∧
    (t.cmd = s.cmd ∨ i = .poll ∧ t.cmd = s.cmd.tail)

/-- R35, R36: while no reset strikes, no operation but POST takes an entry out of the record or changes one. -/
def Obligations.OnlyPostShortensTheRecord : Prop :=
  ∀ (s t : State) (i : Instr), (∀ p, i ≠ .post p) → (∀ k, s.outcomeAt k ≠ .reset) → exec i s = .next t →
    s.record <+: t.record

/-- R26: with FLAGS_MUTABLE false, FLAGS hold INIT_FLAGS for ever once they do. -/
def Obligations.FlagsKeepInitFlags : Prop :=
  ∀ s t : State, s.par.flagsMutable = false → s.flags = s.par.initFlags → step s = .next t →
    t.par = s.par ∧ t.flags = t.par.initFlags

/-- R29, R127: once the block has stopped, TERM_CAUSE and FAULT_INFO hold until reset. -/
def Obligations.TerminationHoldsUntilReset : Prop :=
  ∀ s t : State, s.Inv → s.arrive.resetI = false → s.termCause ≠ .running → step s = .next t →
    t.termCause = s.termCause ∧ t.faultInfo = s.faultInfo ∧ t.seq = s.seq

/-- R31: RESP_OVF is sticky: nothing but reset clears it. -/
def Obligations.RespOvfIsSticky : Prop :=
  ∀ s t : State, s.noReset → s.respOvf = true → step s = .next t → t.respOvf = true

/-- R117: at most one label a step, and only in POST. -/
def Obligations.AtMostOneLabelAStep : Prop :=
  ∀ s t : State, s.arrive.call = none → step s = .next t →
    t.resp = s.arrive.resp ∨
      (∃ l, t.resp = s.arrive.resp ++ [l]) ∧ s.arrive.seq.extractLsb' 0 2 = 1#2 ∧ s.arrive.seq.extractLsb' 4 2 = 2#2

/-- R25, R15: no action of the environment writes a register, the record or a parameter. -/
def Obligations.EnvironmentWritesNoRegister : Prop :=
  ∀ (s : State) (a : EnvAction), (∀ n, (s.act a).register n = s.register n) ∧ (s.act a).record = s.record ∧
    (s.act a).par = s.par ∧ (s.act a).diag = s.diag ∧ (s.act a).trace = s.trace

/-- R69: the 17 bits of an entry. -/
def Obligations.EntryBits : Prop :=
  (∀ sent rcv : Byte, (Entry.byte sent rcv).bits.toNat = 65536 + 256 * sent.toNat + rcv.toNat) ∧
  (∀ sent rcv : Level, (Entry.bit sent rcv).bits.toNat = 256 * sent.toNat + rcv.toNat)

/-- A word of the opcode table that is a SEQ value selecting an operation is what the next step runs, where no register holds a
reserved encoding (the model's placing of a table word, log 10). -/
def Obligations.FetchWordRunsNext : Prop :=
  ∀ (s : State) (w : Nat) (i : Instr), w < 64 → decodeSeq (BitVec.ofNat 6 w) = .ok i →
    ({ s with seq := BitVec.ofNat 6 w } : State).reservedCode = none →
    decodeTableWord 8 w = some i ∧
    ∃ u : State, step (s.withFetchWord 8 w) = exec i u ∧ u.seq = BitVec.ofNat 6 w ∧ u.call = none ∧
      (s.record.length > s.par.respIdx ∨ (∀ p, i ≠ .post p) → u = { s with seq := BitVec.ofNat 6 w, call := none, resetI := false })
end

