-- ==== Sys2Proof/Laws/State.lean ====
section
/-!
SUPPORT. One lemma per field per named update of the state, so that no later proof unfolds a record update.
-/

namespace Sys2Proof.Machine

/-! ## `State.emit` -/

@[simp] theorem State.emit_par (s : State) (e : Event) : (s.emit e).par = s.par := rfl
@[simp] theorem State.emit_flags (s : State) (e : Event) : (s.emit e).flags = s.flags := rfl
@[simp] theorem State.emit_seq (s : State) (e : Event) : (s.emit e).seq = s.seq := rfl
@[simp] theorem State.emit_record (s : State) (e : Event) : (s.emit e).record = s.record := rfl
@[simp] theorem State.emit_unk (s : State) (e : Event) : (s.emit e).unk = s.unk := rfl
@[simp] theorem State.emit_termCause (s : State) (e : Event) : (s.emit e).termCause = s.termCause := rfl
@[simp] theorem State.emit_faultInfo (s : State) (e : Event) : (s.emit e).faultInfo = s.faultInfo := rfl
@[simp] theorem State.emit_respOvf (s : State) (e : Event) : (s.emit e).respOvf = s.respOvf := rfl
@[simp] theorem State.emit_pollT (s : State) (e : Event) : (s.emit e).pollT = s.pollT := rfl
@[simp] theorem State.emit_clkO (s : State) (e : Event) : (s.emit e).clkO = s.clkO := rfl
@[simp] theorem State.emit_dataO (s : State) (e : Event) : (s.emit e).dataO = s.dataO := rfl
@[simp] theorem State.emit_cmd (s : State) (e : Event) : (s.emit e).cmd = s.cmd := rfl
@[simp] theorem State.emit_stopI (s : State) (e : Event) : (s.emit e).stopI = s.stopI := rfl
@[simp] theorem State.emit_rtcI (s : State) (e : Event) : (s.emit e).rtcI = s.rtcI := rfl
@[simp] theorem State.emit_resetI (s : State) (e : Event) : (s.emit e).resetI = s.resetI := rfl
@[simp] theorem State.emit_dataI (s : State) (e : Event) : (s.emit e).dataI = s.dataI := rfl
@[simp] theorem State.emit_lineI (s : State) (e : Event) : (s.emit e).lineI = s.lineI := rfl
@[simp] theorem State.emit_schedule (s : State) (e : Event) : (s.emit e).schedule = s.schedule := rfl
@[simp] theorem State.emit_resp (s : State) (e : Event) : (s.emit e).resp = s.resp := rfl
@[simp] theorem State.emit_diag (s : State) (e : Event) : (s.emit e).diag = s.diag := rfl
@[simp] theorem State.emit_trace (s : State) (e : Event) : (s.emit e).trace = s.trace ++ [e] := rfl
@[simp] theorem State.emit_call (s : State) (e : Event) : (s.emit e).call = s.call := rfl
@[simp] theorem State.emit_ret (s : State) (e : Event) : (s.emit e).ret = s.ret := rfl
@[simp] theorem State.emit_sampleCtr (s : State) (e : Event) : (s.emit e).sampleCtr = s.sampleCtr := rfl
@[simp] theorem State.emit_freeCtr (s : State) (e : Event) : (s.emit e).freeCtr = s.freeCtr := rfl

/-! ## `State.goto` -/

@[simp] theorem State.goto_par (s : State) (w : BitVec 6) : (s.goto w).par = s.par := rfl
@[simp] theorem State.goto_flags (s : State) (w : BitVec 6) : (s.goto w).flags = s.flags := rfl
@[simp] theorem State.goto_seq (s : State) (w : BitVec 6) : (s.goto w).seq = w := rfl
@[simp] theorem State.goto_record (s : State) (w : BitVec 6) : (s.goto w).record = s.record := rfl
@[simp] theorem State.goto_unk (s : State) (w : BitVec 6) : (s.goto w).unk = s.unk := rfl
@[simp] theorem State.goto_termCause (s : State) (w : BitVec 6) : (s.goto w).termCause = s.termCause := rfl
@[simp] theorem State.goto_faultInfo (s : State) (w : BitVec 6) : (s.goto w).faultInfo = s.faultInfo := rfl
@[simp] theorem State.goto_respOvf (s : State) (w : BitVec 6) : (s.goto w).respOvf = s.respOvf := rfl
@[simp] theorem State.goto_pollT (s : State) (w : BitVec 6) : (s.goto w).pollT = s.pollT := rfl
@[simp] theorem State.goto_clkO (s : State) (w : BitVec 6) : (s.goto w).clkO = s.clkO := rfl
@[simp] theorem State.goto_dataO (s : State) (w : BitVec 6) : (s.goto w).dataO = s.dataO := rfl
@[simp] theorem State.goto_cmd (s : State) (w : BitVec 6) : (s.goto w).cmd = s.cmd := rfl
@[simp] theorem State.goto_stopI (s : State) (w : BitVec 6) : (s.goto w).stopI = s.stopI := rfl
@[simp] theorem State.goto_rtcI (s : State) (w : BitVec 6) : (s.goto w).rtcI = s.rtcI := rfl
@[simp] theorem State.goto_resetI (s : State) (w : BitVec 6) : (s.goto w).resetI = s.resetI := rfl
@[simp] theorem State.goto_dataI (s : State) (w : BitVec 6) : (s.goto w).dataI = s.dataI := rfl
@[simp] theorem State.goto_lineI (s : State) (w : BitVec 6) : (s.goto w).lineI = s.lineI := rfl
@[simp] theorem State.goto_schedule (s : State) (w : BitVec 6) : (s.goto w).schedule = s.schedule := rfl
@[simp] theorem State.goto_resp (s : State) (w : BitVec 6) : (s.goto w).resp = s.resp := rfl
@[simp] theorem State.goto_diag (s : State) (w : BitVec 6) : (s.goto w).diag = s.diag := rfl
@[simp] theorem State.goto_trace (s : State) (w : BitVec 6) : (s.goto w).trace = s.trace := rfl
@[simp] theorem State.goto_call (s : State) (w : BitVec 6) : (s.goto w).call = s.call := rfl
@[simp] theorem State.goto_ret (s : State) (w : BitVec 6) : (s.goto w).ret = s.ret := rfl
@[simp] theorem State.goto_sampleCtr (s : State) (w : BitVec 6) : (s.goto w).sampleCtr = s.sampleCtr := rfl
@[simp] theorem State.goto_freeCtr (s : State) (w : BitVec 6) : (s.goto w).freeCtr = s.freeCtr := rfl

/-! ## `State.returns` -/

@[simp] theorem State.returns_par (s : State) (r : OpResult) : (s.returns r).par = s.par := rfl
@[simp] theorem State.returns_flags (s : State) (r : OpResult) : (s.returns r).flags = s.flags := rfl
@[simp] theorem State.returns_seq (s : State) (r : OpResult) : (s.returns r).seq = s.seq := rfl
@[simp] theorem State.returns_record (s : State) (r : OpResult) : (s.returns r).record = s.record := rfl
@[simp] theorem State.returns_unk (s : State) (r : OpResult) : (s.returns r).unk = s.unk := rfl
@[simp] theorem State.returns_termCause (s : State) (r : OpResult) : (s.returns r).termCause = s.termCause := rfl
@[simp] theorem State.returns_faultInfo (s : State) (r : OpResult) : (s.returns r).faultInfo = s.faultInfo := rfl
@[simp] theorem State.returns_respOvf (s : State) (r : OpResult) : (s.returns r).respOvf = s.respOvf := rfl
@[simp] theorem State.returns_pollT (s : State) (r : OpResult) : (s.returns r).pollT = s.pollT := rfl
@[simp] theorem State.returns_clkO (s : State) (r : OpResult) : (s.returns r).clkO = s.clkO := rfl
@[simp] theorem State.returns_dataO (s : State) (r : OpResult) : (s.returns r).dataO = s.dataO := rfl
@[simp] theorem State.returns_cmd (s : State) (r : OpResult) : (s.returns r).cmd = s.cmd := rfl
@[simp] theorem State.returns_stopI (s : State) (r : OpResult) : (s.returns r).stopI = s.stopI := rfl
@[simp] theorem State.returns_rtcI (s : State) (r : OpResult) : (s.returns r).rtcI = s.rtcI := rfl
@[simp] theorem State.returns_resetI (s : State) (r : OpResult) : (s.returns r).resetI = s.resetI := rfl
@[simp] theorem State.returns_dataI (s : State) (r : OpResult) : (s.returns r).dataI = s.dataI := rfl
@[simp] theorem State.returns_lineI (s : State) (r : OpResult) : (s.returns r).lineI = s.lineI := rfl
@[simp] theorem State.returns_schedule (s : State) (r : OpResult) : (s.returns r).schedule = s.schedule := rfl
@[simp] theorem State.returns_resp (s : State) (r : OpResult) : (s.returns r).resp = s.resp := rfl
@[simp] theorem State.returns_diag (s : State) (r : OpResult) : (s.returns r).diag = s.diag := rfl
@[simp] theorem State.returns_trace (s : State) (r : OpResult) : (s.returns r).trace = s.trace := rfl
@[simp] theorem State.returns_call (s : State) (r : OpResult) : (s.returns r).call = s.call := rfl
@[simp] theorem State.returns_ret (s : State) (r : OpResult) : (s.returns r).ret = r := rfl
@[simp] theorem State.returns_sampleCtr (s : State) (r : OpResult) : (s.returns r).sampleCtr = s.sampleCtr := rfl
@[simp] theorem State.returns_freeCtr (s : State) (r : OpResult) : (s.returns r).freeCtr = s.freeCtr := rfl

/-! ## `State.recAppend` -/

@[simp] theorem State.recAppend_par (s : State) (e : Entry) : (s.recAppend e).par = s.par := rfl
@[simp] theorem State.recAppend_flags (s : State) (e : Entry) : (s.recAppend e).flags = s.flags := rfl
@[simp] theorem State.recAppend_seq (s : State) (e : Entry) : (s.recAppend e).seq = s.seq := rfl
@[simp] theorem State.recAppend_record (s : State) (e : Entry) : (s.recAppend e).record = s.record ++ [e] := rfl
@[simp] theorem State.recAppend_unk (s : State) (e : Entry) : (s.recAppend e).unk = s.unk := rfl
@[simp] theorem State.recAppend_termCause (s : State) (e : Entry) : (s.recAppend e).termCause = s.termCause := rfl
@[simp] theorem State.recAppend_faultInfo (s : State) (e : Entry) : (s.recAppend e).faultInfo = s.faultInfo := rfl
@[simp] theorem State.recAppend_respOvf (s : State) (e : Entry) : (s.recAppend e).respOvf = s.respOvf := rfl
@[simp] theorem State.recAppend_pollT (s : State) (e : Entry) : (s.recAppend e).pollT = s.pollT := rfl
@[simp] theorem State.recAppend_clkO (s : State) (e : Entry) : (s.recAppend e).clkO = s.clkO := rfl
@[simp] theorem State.recAppend_dataO (s : State) (e : Entry) : (s.recAppend e).dataO = s.dataO := rfl
@[simp] theorem State.recAppend_cmd (s : State) (e : Entry) : (s.recAppend e).cmd = s.cmd := rfl
@[simp] theorem State.recAppend_stopI (s : State) (e : Entry) : (s.recAppend e).stopI = s.stopI := rfl
@[simp] theorem State.recAppend_rtcI (s : State) (e : Entry) : (s.recAppend e).rtcI = s.rtcI := rfl
@[simp] theorem State.recAppend_resetI (s : State) (e : Entry) : (s.recAppend e).resetI = s.resetI := rfl
@[simp] theorem State.recAppend_dataI (s : State) (e : Entry) : (s.recAppend e).dataI = s.dataI := rfl
@[simp] theorem State.recAppend_lineI (s : State) (e : Entry) : (s.recAppend e).lineI = s.lineI := rfl
@[simp] theorem State.recAppend_schedule (s : State) (e : Entry) : (s.recAppend e).schedule = s.schedule := rfl
@[simp] theorem State.recAppend_resp (s : State) (e : Entry) : (s.recAppend e).resp = s.resp := rfl
@[simp] theorem State.recAppend_diag (s : State) (e : Entry) : (s.recAppend e).diag = s.diag := rfl
@[simp] theorem State.recAppend_trace (s : State) (e : Entry) : (s.recAppend e).trace = s.trace := rfl
@[simp] theorem State.recAppend_call (s : State) (e : Entry) : (s.recAppend e).call = s.call := rfl
@[simp] theorem State.recAppend_ret (s : State) (e : Entry) : (s.recAppend e).ret = s.ret := rfl
@[simp] theorem State.recAppend_sampleCtr (s : State) (e : Entry) : (s.recAppend e).sampleCtr = s.sampleCtr := rfl
@[simp] theorem State.recAppend_freeCtr (s : State) (e : Entry) : (s.recAppend e).freeCtr = s.freeCtr := rfl

/-! ## `State.recClear` -/

@[simp] theorem State.recClear_par (s : State) : (s.recClear).par = s.par := rfl
@[simp] theorem State.recClear_flags (s : State) : (s.recClear).flags = s.flags := rfl
@[simp] theorem State.recClear_seq (s : State) : (s.recClear).seq = s.seq := rfl
@[simp] theorem State.recClear_record (s : State) : (s.recClear).record = [] := rfl
@[simp] theorem State.recClear_unk (s : State) : (s.recClear).unk = s.unk := rfl
@[simp] theorem State.recClear_termCause (s : State) : (s.recClear).termCause = s.termCause := rfl
@[simp] theorem State.recClear_faultInfo (s : State) : (s.recClear).faultInfo = s.faultInfo := rfl
@[simp] theorem State.recClear_respOvf (s : State) : (s.recClear).respOvf = s.respOvf := rfl
@[simp] theorem State.recClear_pollT (s : State) : (s.recClear).pollT = s.pollT := rfl
@[simp] theorem State.recClear_clkO (s : State) : (s.recClear).clkO = s.clkO := rfl
@[simp] theorem State.recClear_dataO (s : State) : (s.recClear).dataO = s.dataO := rfl
@[simp] theorem State.recClear_cmd (s : State) : (s.recClear).cmd = s.cmd := rfl
@[simp] theorem State.recClear_stopI (s : State) : (s.recClear).stopI = s.stopI := rfl
@[simp] theorem State.recClear_rtcI (s : State) : (s.recClear).rtcI = s.rtcI := rfl
@[simp] theorem State.recClear_resetI (s : State) : (s.recClear).resetI = s.resetI := rfl
@[simp] theorem State.recClear_dataI (s : State) : (s.recClear).dataI = s.dataI := rfl
@[simp] theorem State.recClear_lineI (s : State) : (s.recClear).lineI = s.lineI := rfl
@[simp] theorem State.recClear_schedule (s : State) : (s.recClear).schedule = s.schedule := rfl
@[simp] theorem State.recClear_resp (s : State) : (s.recClear).resp = s.resp := rfl
@[simp] theorem State.recClear_diag (s : State) : (s.recClear).diag = s.diag := rfl
@[simp] theorem State.recClear_trace (s : State) : (s.recClear).trace = s.trace := rfl
@[simp] theorem State.recClear_call (s : State) : (s.recClear).call = s.call := rfl
@[simp] theorem State.recClear_ret (s : State) : (s.recClear).ret = s.ret := rfl
@[simp] theorem State.recClear_sampleCtr (s : State) : (s.recClear).sampleCtr = s.sampleCtr := rfl
@[simp] theorem State.recClear_freeCtr (s : State) : (s.recClear).freeCtr = s.freeCtr := rfl

/-! ## `State.delay` -/

@[simp] theorem State.delay_par (s : State) (t : Delay) : (s.delay t).par = s.par := rfl
@[simp] theorem State.delay_flags (s : State) (t : Delay) : (s.delay t).flags = s.flags := rfl
@[simp] theorem State.delay_seq (s : State) (t : Delay) : (s.delay t).seq = s.seq := rfl
@[simp] theorem State.delay_record (s : State) (t : Delay) : (s.delay t).record = s.record := rfl
@[simp] theorem State.delay_unk (s : State) (t : Delay) : (s.delay t).unk = s.unk := rfl
@[simp] theorem State.delay_termCause (s : State) (t : Delay) : (s.delay t).termCause = s.termCause := rfl
@[simp] theorem State.delay_faultInfo (s : State) (t : Delay) : (s.delay t).faultInfo = s.faultInfo := rfl
@[simp] theorem State.delay_respOvf (s : State) (t : Delay) : (s.delay t).respOvf = s.respOvf := rfl
@[simp] theorem State.delay_pollT (s : State) (t : Delay) : (s.delay t).pollT = s.pollT := rfl
@[simp] theorem State.delay_clkO (s : State) (t : Delay) : (s.delay t).clkO = s.clkO := rfl
@[simp] theorem State.delay_dataO (s : State) (t : Delay) : (s.delay t).dataO = s.dataO := rfl
@[simp] theorem State.delay_cmd (s : State) (t : Delay) : (s.delay t).cmd = s.cmd := rfl
@[simp] theorem State.delay_stopI (s : State) (t : Delay) : (s.delay t).stopI = s.stopI := rfl
@[simp] theorem State.delay_rtcI (s : State) (t : Delay) : (s.delay t).rtcI = s.rtcI := rfl
@[simp] theorem State.delay_resetI (s : State) (t : Delay) : (s.delay t).resetI = s.resetI := rfl
@[simp] theorem State.delay_dataI (s : State) (t : Delay) : (s.delay t).dataI = s.dataI := rfl
@[simp] theorem State.delay_lineI (s : State) (t : Delay) : (s.delay t).lineI = s.lineI := rfl
@[simp] theorem State.delay_schedule (s : State) (t : Delay) : (s.delay t).schedule = s.schedule := rfl
@[simp] theorem State.delay_resp (s : State) (t : Delay) : (s.delay t).resp = s.resp := rfl
@[simp] theorem State.delay_diag (s : State) (t : Delay) : (s.delay t).diag = s.diag := rfl
@[simp] theorem State.delay_trace (s : State) (t : Delay) : (s.delay t).trace = s.trace ++ [.wait t] := rfl
@[simp] theorem State.delay_call (s : State) (t : Delay) : (s.delay t).call = s.call := rfl
@[simp] theorem State.delay_ret (s : State) (t : Delay) : (s.delay t).ret = s.ret := rfl
@[simp] theorem State.delay_sampleCtr (s : State) (t : Delay) : (s.delay t).sampleCtr = s.sampleCtr := rfl
@[simp] theorem State.delay_freeCtr (s : State) (t : Delay) : (s.delay t).freeCtr = s.freeCtr := rfl

/-! ## `State.emitStepDiag` -/

@[simp] theorem State.emitStepDiag_par (s : State) (p : Step) : (s.emitStepDiag p).par = s.par := rfl
@[simp] theorem State.emitStepDiag_flags (s : State) (p : Step) : (s.emitStepDiag p).flags = s.flags := rfl
@[simp] theorem State.emitStepDiag_seq (s : State) (p : Step) : (s.emitStepDiag p).seq = s.seq := rfl
@[simp] theorem State.emitStepDiag_record (s : State) (p : Step) : (s.emitStepDiag p).record = s.record := rfl
@[simp] theorem State.emitStepDiag_unk (s : State) (p : Step) : (s.emitStepDiag p).unk = s.unk := rfl
@[simp] theorem State.emitStepDiag_termCause (s : State) (p : Step) : (s.emitStepDiag p).termCause = s.termCause := rfl
@[simp] theorem State.emitStepDiag_faultInfo (s : State) (p : Step) : (s.emitStepDiag p).faultInfo = s.faultInfo := rfl
@[simp] theorem State.emitStepDiag_respOvf (s : State) (p : Step) : (s.emitStepDiag p).respOvf = s.respOvf := rfl
@[simp] theorem State.emitStepDiag_pollT (s : State) (p : Step) : (s.emitStepDiag p).pollT = s.pollT := rfl
@[simp] theorem State.emitStepDiag_clkO (s : State) (p : Step) : (s.emitStepDiag p).clkO = s.clkO := rfl
@[simp] theorem State.emitStepDiag_dataO (s : State) (p : Step) : (s.emitStepDiag p).dataO = s.dataO := rfl
@[simp] theorem State.emitStepDiag_cmd (s : State) (p : Step) : (s.emitStepDiag p).cmd = s.cmd := rfl
@[simp] theorem State.emitStepDiag_stopI (s : State) (p : Step) : (s.emitStepDiag p).stopI = s.stopI := rfl
@[simp] theorem State.emitStepDiag_rtcI (s : State) (p : Step) : (s.emitStepDiag p).rtcI = s.rtcI := rfl
@[simp] theorem State.emitStepDiag_resetI (s : State) (p : Step) : (s.emitStepDiag p).resetI = s.resetI := rfl
@[simp] theorem State.emitStepDiag_dataI (s : State) (p : Step) : (s.emitStepDiag p).dataI = s.dataI := rfl
@[simp] theorem State.emitStepDiag_lineI (s : State) (p : Step) : (s.emitStepDiag p).lineI = s.lineI := rfl
@[simp] theorem State.emitStepDiag_schedule (s : State) (p : Step) : (s.emitStepDiag p).schedule = s.schedule := rfl
@[simp] theorem State.emitStepDiag_resp (s : State) (p : Step) : (s.emitStepDiag p).resp = s.resp := rfl
@[simp] theorem State.emitStepDiag_diag (s : State) (p : Step) :
    (s.emitStepDiag p).diag = s.diag ++ [.stepDiag p s.record s.unk] := rfl
@[simp] theorem State.emitStepDiag_trace (s : State) (p : Step) :
    (s.emitStepDiag p).trace = s.trace ++ [.diag s.record s.unk] := rfl
@[simp] theorem State.emitStepDiag_call (s : State) (p : Step) : (s.emitStepDiag p).call = s.call := rfl
@[simp] theorem State.emitStepDiag_ret (s : State) (p : Step) : (s.emitStepDiag p).ret = s.ret := rfl
@[simp] theorem State.emitStepDiag_sampleCtr (s : State) (p : Step) : (s.emitStepDiag p).sampleCtr = s.sampleCtr := rfl
@[simp] theorem State.emitStepDiag_freeCtr (s : State) (p : Step) : (s.emitStepDiag p).freeCtr = s.freeCtr := rfl

/-! ## `State.applyReset` -/

@[simp] theorem State.applyReset_par (s : State) : (s.applyReset).par = s.par := rfl
@[simp] theorem State.applyReset_flags (s : State) : (s.applyReset).flags = s.par.initFlags := rfl
@[simp] theorem State.applyReset_seq (s : State) : (s.applyReset).seq = 0#6 := rfl
@[simp] theorem State.applyReset_record (s : State) : (s.applyReset).record = [] := rfl
@[simp] theorem State.applyReset_unk (s : State) : (s.applyReset).unk = false := rfl
@[simp] theorem State.applyReset_termCause (s : State) : (s.applyReset).termCause = .running := rfl
@[simp] theorem State.applyReset_faultInfo (s : State) : (s.applyReset).faultInfo = 0#10 := rfl
@[simp] theorem State.applyReset_respOvf (s : State) : (s.applyReset).respOvf = false := rfl
@[simp] theorem State.applyReset_pollT (s : State) : (s.applyReset).pollT = 0#22 := rfl
@[simp] theorem State.applyReset_clkO (s : State) : (s.applyReset).clkO = true := rfl
@[simp] theorem State.applyReset_dataO (s : State) : (s.applyReset).dataO = true := rfl
@[simp] theorem State.applyReset_cmd (s : State) : (s.applyReset).cmd = s.cmd := rfl
@[simp] theorem State.applyReset_stopI (s : State) : (s.applyReset).stopI = s.stopI := rfl
@[simp] theorem State.applyReset_rtcI (s : State) : (s.applyReset).rtcI = s.rtcI := rfl
@[simp] theorem State.applyReset_resetI (s : State) : (s.applyReset).resetI = s.resetI := rfl
@[simp] theorem State.applyReset_dataI (s : State) : (s.applyReset).dataI = s.dataI := rfl
@[simp] theorem State.applyReset_lineI (s : State) : (s.applyReset).lineI = s.lineI := rfl
@[simp] theorem State.applyReset_schedule (s : State) : (s.applyReset).schedule = s.schedule := rfl
@[simp] theorem State.applyReset_resp (s : State) : (s.applyReset).resp = s.resp := rfl
@[simp] theorem State.applyReset_diag (s : State) : (s.applyReset).diag = s.diag := rfl
@[simp] theorem State.applyReset_trace (s : State) : (s.applyReset).trace = s.trace := rfl
@[simp] theorem State.applyReset_call (s : State) : (s.applyReset).call = none := rfl
@[simp] theorem State.applyReset_ret (s : State) : (s.applyReset).ret = .nothing := rfl
@[simp] theorem State.applyReset_sampleCtr (s : State) : (s.applyReset).sampleCtr = s.sampleCtr := rfl
@[simp] theorem State.applyReset_freeCtr (s : State) : (s.applyReset).freeCtr = s.freeCtr := rfl

/-! ## `State.takeFault` -/

@[simp] theorem State.takeFault_par (s : State) (t : FrameType) (op : LineOp) : (s.takeFault t op).par = s.par := rfl
@[simp] theorem State.takeFault_flags (s : State) (t : FrameType) (op : LineOp) : (s.takeFault t op).flags = s.flags := rfl
@[simp] theorem State.takeFault_seq (s : State) (t : FrameType) (op : LineOp) : (s.takeFault t op).seq = seqFaulted := rfl
@[simp] theorem State.takeFault_record (s : State) (t : FrameType) (op : LineOp) : (s.takeFault t op).record = s.record := rfl
@[simp] theorem State.takeFault_unk (s : State) (t : FrameType) (op : LineOp) : (s.takeFault t op).unk = s.unk := rfl
@[simp] theorem State.takeFault_termCause (s : State) (t : FrameType) (op : LineOp) :
    (s.takeFault t op).termCause = .lineFault := rfl
@[simp] theorem State.takeFault_faultInfo (s : State) (t : FrameType) (op : LineOp) :
    (s.takeFault t op).faultInfo = mkFaultInfo t s.record.length op := rfl
@[simp] theorem State.takeFault_respOvf (s : State) (t : FrameType) (op : LineOp) :
    (s.takeFault t op).respOvf = s.respOvf := rfl
@[simp] theorem State.takeFault_pollT (s : State) (t : FrameType) (op : LineOp) : (s.takeFault t op).pollT = s.pollT := rfl
@[simp] theorem State.takeFault_clkO (s : State) (t : FrameType) (op : LineOp) :
    (s.takeFault t op).clkO = Config.freeClk s.freeCtr := rfl
@[simp] theorem State.takeFault_dataO (s : State) (t : FrameType) (op : LineOp) :
    (s.takeFault t op).dataO = Config.freeData s.freeCtr := rfl
@[simp] theorem State.takeFault_cmd (s : State) (t : FrameType) (op : LineOp) : (s.takeFault t op).cmd = s.cmd := rfl
@[simp] theorem State.takeFault_stopI (s : State) (t : FrameType) (op : LineOp) : (s.takeFault t op).stopI = s.stopI := rfl
@[simp] theorem State.takeFault_rtcI (s : State) (t : FrameType) (op : LineOp) : (s.takeFault t op).rtcI = s.rtcI := rfl
@[simp] theorem State.takeFault_resetI (s : State) (t : FrameType) (op : LineOp) : (s.takeFault t op).resetI = s.resetI := rfl
@[simp] theorem State.takeFault_dataI (s : State) (t : FrameType) (op : LineOp) : (s.takeFault t op).dataI = s.dataI := rfl
@[simp] theorem State.takeFault_lineI (s : State) (t : FrameType) (op : LineOp) : (s.takeFault t op).lineI = s.lineI := rfl
@[simp] theorem State.takeFault_schedule (s : State) (t : FrameType) (op : LineOp) :
    (s.takeFault t op).schedule = s.schedule := rfl
@[simp] theorem State.takeFault_resp (s : State) (t : FrameType) (op : LineOp) : (s.takeFault t op).resp = s.resp := rfl
@[simp] theorem State.takeFault_diag (s : State) (t : FrameType) (op : LineOp) :
    (s.takeFault t op).diag = s.diag ++ [.faultDiag (mkFaultInfo t s.record.length op) s.record] := rfl
@[simp] theorem State.takeFault_trace (s : State) (t : FrameType) (op : LineOp) :
    (s.takeFault t op).trace = s.trace ++ [.fault (mkFaultInfo t s.record.length op), .halt .lineFault] := rfl
@[simp] theorem State.takeFault_call (s : State) (t : FrameType) (op : LineOp) : (s.takeFault t op).call = s.call := rfl
@[simp] theorem State.takeFault_ret (s : State) (t : FrameType) (op : LineOp) : (s.takeFault t op).ret = .nothing := rfl
@[simp] theorem State.takeFault_sampleCtr (s : State) (t : FrameType) (op : LineOp) :
    (s.takeFault t op).sampleCtr = s.sampleCtr := rfl
@[simp] theorem State.takeFault_freeCtr (s : State) (t : FrameType) (op : LineOp) :
    (s.takeFault t op).freeCtr = s.freeCtr + 1 := rfl

/-! ## `State.answered` -/

@[simp] theorem State.answered_par (s : State) : (s.answered).par = s.par := rfl
@[simp] theorem State.answered_flags (s : State) : (s.answered).flags = s.flags := rfl
@[simp] theorem State.answered_seq (s : State) : (s.answered).seq = s.seq := rfl
@[simp] theorem State.answered_record (s : State) : (s.answered).record = s.record := rfl
@[simp] theorem State.answered_unk (s : State) : (s.answered).unk = s.unk := rfl
@[simp] theorem State.answered_termCause (s : State) : (s.answered).termCause = s.termCause := rfl
@[simp] theorem State.answered_faultInfo (s : State) : (s.answered).faultInfo = s.faultInfo := rfl
@[simp] theorem State.answered_respOvf (s : State) : (s.answered).respOvf = s.respOvf := rfl
@[simp] theorem State.answered_pollT (s : State) : (s.answered).pollT = s.pollT := rfl
@[simp] theorem State.answered_clkO (s : State) : (s.answered).clkO = s.clkO := rfl
@[simp] theorem State.answered_dataO (s : State) : (s.answered).dataO = s.dataO := rfl
@[simp] theorem State.answered_cmd (s : State) : (s.answered).cmd = s.cmd := rfl
@[simp] theorem State.answered_stopI (s : State) : (s.answered).stopI = s.stopI := rfl
@[simp] theorem State.answered_rtcI (s : State) : (s.answered).rtcI = s.rtcI := rfl
@[simp] theorem State.answered_resetI (s : State) : (s.answered).resetI = s.resetI := rfl
@[simp] theorem State.answered_dataI (s : State) : (s.answered).dataI = s.dataI := rfl
@[simp] theorem State.answered_lineI (s : State) : (s.answered).lineI = s.lineI.drop 1 := rfl
@[simp] theorem State.answered_schedule (s : State) : (s.answered).schedule = s.schedule := rfl
@[simp] theorem State.answered_resp (s : State) : (s.answered).resp = s.resp := rfl
@[simp] theorem State.answered_diag (s : State) : (s.answered).diag = s.diag := rfl
@[simp] theorem State.answered_trace (s : State) : (s.answered).trace = s.trace := rfl
@[simp] theorem State.answered_call (s : State) : (s.answered).call = s.call := rfl
@[simp] theorem State.answered_ret (s : State) : (s.answered).ret = s.ret := rfl
@[simp] theorem State.answered_sampleCtr (s : State) : (s.answered).sampleCtr = s.sampleCtr := rfl
@[simp] theorem State.answered_freeCtr (s : State) : (s.answered).freeCtr = s.freeCtr := rfl

/-! ## `State.driveClk` -/

@[simp] theorem State.driveClk_par (s : State) (v : Level) : (s.driveClk v).par = s.par := rfl
@[simp] theorem State.driveClk_flags (s : State) (v : Level) : (s.driveClk v).flags = s.flags := rfl
@[simp] theorem State.driveClk_seq (s : State) (v : Level) : (s.driveClk v).seq = s.seq := rfl
@[simp] theorem State.driveClk_record (s : State) (v : Level) : (s.driveClk v).record = s.record := rfl
@[simp] theorem State.driveClk_unk (s : State) (v : Level) : (s.driveClk v).unk = s.unk := rfl
@[simp] theorem State.driveClk_termCause (s : State) (v : Level) : (s.driveClk v).termCause = s.termCause := rfl
@[simp] theorem State.driveClk_faultInfo (s : State) (v : Level) : (s.driveClk v).faultInfo = s.faultInfo := rfl
@[simp] theorem State.driveClk_respOvf (s : State) (v : Level) : (s.driveClk v).respOvf = s.respOvf := rfl
@[simp] theorem State.driveClk_pollT (s : State) (v : Level) : (s.driveClk v).pollT = s.pollT := rfl
@[simp] theorem State.driveClk_clkO (s : State) (v : Level) : (s.driveClk v).clkO = v := rfl
@[simp] theorem State.driveClk_dataO (s : State) (v : Level) : (s.driveClk v).dataO = s.dataO := rfl
@[simp] theorem State.driveClk_cmd (s : State) (v : Level) : (s.driveClk v).cmd = s.cmd := rfl
@[simp] theorem State.driveClk_stopI (s : State) (v : Level) : (s.driveClk v).stopI = s.stopI := rfl
@[simp] theorem State.driveClk_rtcI (s : State) (v : Level) : (s.driveClk v).rtcI = s.rtcI := rfl
@[simp] theorem State.driveClk_resetI (s : State) (v : Level) : (s.driveClk v).resetI = s.resetI := rfl
@[simp] theorem State.driveClk_dataI (s : State) (v : Level) : (s.driveClk v).dataI = s.dataI := rfl
@[simp] theorem State.driveClk_lineI (s : State) (v : Level) : (s.driveClk v).lineI = s.lineI := rfl
@[simp] theorem State.driveClk_schedule (s : State) (v : Level) : (s.driveClk v).schedule = s.schedule := rfl
@[simp] theorem State.driveClk_resp (s : State) (v : Level) : (s.driveClk v).resp = s.resp := rfl
@[simp] theorem State.driveClk_diag (s : State) (v : Level) : (s.driveClk v).diag = s.diag := rfl
@[simp] theorem State.driveClk_trace (s : State) (v : Level) : (s.driveClk v).trace = s.trace ++ [.clk v] := rfl
@[simp] theorem State.driveClk_call (s : State) (v : Level) : (s.driveClk v).call = s.call := rfl
@[simp] theorem State.driveClk_ret (s : State) (v : Level) : (s.driveClk v).ret = s.ret := rfl
@[simp] theorem State.driveClk_sampleCtr (s : State) (v : Level) : (s.driveClk v).sampleCtr = s.sampleCtr := rfl
@[simp] theorem State.driveClk_freeCtr (s : State) (v : Level) : (s.driveClk v).freeCtr = s.freeCtr := rfl

/-! ## `State.driveData` -/

@[simp] theorem State.driveData_par (s : State) (v : Level) : (s.driveData v).par = s.par := rfl
@[simp] theorem State.driveData_flags (s : State) (v : Level) : (s.driveData v).flags = s.flags := rfl
@[simp] theorem State.driveData_seq (s : State) (v : Level) : (s.driveData v).seq = s.seq := rfl
@[simp] theorem State.driveData_record (s : State) (v : Level) : (s.driveData v).record = s.record := rfl
@[simp] theorem State.driveData_unk (s : State) (v : Level) : (s.driveData v).unk = s.unk := rfl
@[simp] theorem State.driveData_termCause (s : State) (v : Level) : (s.driveData v).termCause = s.termCause := rfl
@[simp] theorem State.driveData_faultInfo (s : State) (v : Level) : (s.driveData v).faultInfo = s.faultInfo := rfl
@[simp] theorem State.driveData_respOvf (s : State) (v : Level) : (s.driveData v).respOvf = s.respOvf := rfl
@[simp] theorem State.driveData_pollT (s : State) (v : Level) : (s.driveData v).pollT = s.pollT := rfl
@[simp] theorem State.driveData_clkO (s : State) (v : Level) : (s.driveData v).clkO = s.clkO := rfl
@[simp] theorem State.driveData_dataO (s : State) (v : Level) : (s.driveData v).dataO = v := rfl
@[simp] theorem State.driveData_cmd (s : State) (v : Level) : (s.driveData v).cmd = s.cmd := rfl
@[simp] theorem State.driveData_stopI (s : State) (v : Level) : (s.driveData v).stopI = s.stopI := rfl
@[simp] theorem State.driveData_rtcI (s : State) (v : Level) : (s.driveData v).rtcI = s.rtcI := rfl
@[simp] theorem State.driveData_resetI (s : State) (v : Level) : (s.driveData v).resetI = s.resetI := rfl
@[simp] theorem State.driveData_dataI (s : State) (v : Level) : (s.driveData v).dataI = s.dataI := rfl
@[simp] theorem State.driveData_lineI (s : State) (v : Level) : (s.driveData v).lineI = s.lineI := rfl
@[simp] theorem State.driveData_schedule (s : State) (v : Level) : (s.driveData v).schedule = s.schedule := rfl
@[simp] theorem State.driveData_resp (s : State) (v : Level) : (s.driveData v).resp = s.resp := rfl
@[simp] theorem State.driveData_diag (s : State) (v : Level) : (s.driveData v).diag = s.diag := rfl
@[simp] theorem State.driveData_trace (s : State) (v : Level) : (s.driveData v).trace = s.trace ++ [.data v] := rfl
@[simp] theorem State.driveData_call (s : State) (v : Level) : (s.driveData v).call = s.call := rfl
@[simp] theorem State.driveData_ret (s : State) (v : Level) : (s.driveData v).ret = s.ret := rfl
@[simp] theorem State.driveData_sampleCtr (s : State) (v : Level) : (s.driveData v).sampleCtr = s.sampleCtr := rfl
@[simp] theorem State.driveData_freeCtr (s : State) (v : Level) : (s.driveData v).freeCtr = s.freeCtr := rfl

/-! ## `State.sampled` -/

@[simp] theorem State.sampled_par (s : State) : (s.sampled).par = s.par := rfl
@[simp] theorem State.sampled_flags (s : State) : (s.sampled).flags = s.flags := rfl
@[simp] theorem State.sampled_seq (s : State) : (s.sampled).seq = s.seq := rfl
@[simp] theorem State.sampled_record (s : State) : (s.sampled).record = s.record := rfl
@[simp] theorem State.sampled_unk (s : State) : (s.sampled).unk = s.unk := rfl
@[simp] theorem State.sampled_termCause (s : State) : (s.sampled).termCause = s.termCause := rfl
@[simp] theorem State.sampled_faultInfo (s : State) : (s.sampled).faultInfo = s.faultInfo := rfl
@[simp] theorem State.sampled_respOvf (s : State) : (s.sampled).respOvf = s.respOvf := rfl
@[simp] theorem State.sampled_pollT (s : State) : (s.sampled).pollT = s.pollT := rfl
@[simp] theorem State.sampled_clkO (s : State) : (s.sampled).clkO = s.clkO := rfl
@[simp] theorem State.sampled_dataO (s : State) : (s.sampled).dataO = s.dataO := rfl
@[simp] theorem State.sampled_cmd (s : State) : (s.sampled).cmd = s.cmd := rfl
@[simp] theorem State.sampled_stopI (s : State) : (s.sampled).stopI = s.stopI := rfl
@[simp] theorem State.sampled_rtcI (s : State) : (s.sampled).rtcI = s.rtcI := rfl
@[simp] theorem State.sampled_resetI (s : State) : (s.sampled).resetI = s.resetI := rfl
@[simp] theorem State.sampled_dataI (s : State) : (s.sampled).dataI = s.dataI.drop 1 := rfl
@[simp] theorem State.sampled_lineI (s : State) : (s.sampled).lineI = s.lineI := rfl
@[simp] theorem State.sampled_schedule (s : State) : (s.sampled).schedule = s.schedule := rfl
@[simp] theorem State.sampled_resp (s : State) : (s.sampled).resp = s.resp := rfl
@[simp] theorem State.sampled_diag (s : State) : (s.sampled).diag = s.diag := rfl
@[simp] theorem State.sampled_trace (s : State) : (s.sampled).trace = s.trace ++ [.sample (s.sampleAt 0)] := rfl
@[simp] theorem State.sampled_call (s : State) : (s.sampled).call = s.call := rfl
@[simp] theorem State.sampled_ret (s : State) : (s.sampled).ret = s.ret := rfl
@[simp] theorem State.sampled_sampleCtr (s : State) : (s.sampled).sampleCtr = s.sampleCtr + 1 := rfl
@[simp] theorem State.sampled_freeCtr (s : State) : (s.sampled).freeCtr = s.freeCtr := rfl

/-! ## `State.fetched` -/

@[simp] theorem State.fetched_par (s : State) : (s.fetched).par = s.par := rfl
@[simp] theorem State.fetched_flags (s : State) : (s.fetched).flags = s.flags := rfl
@[simp] theorem State.fetched_seq (s : State) : (s.fetched).seq = s.seq := rfl
@[simp] theorem State.fetched_record (s : State) : (s.fetched).record = s.record := rfl
@[simp] theorem State.fetched_unk (s : State) : (s.fetched).unk = s.unk := rfl
@[simp] theorem State.fetched_termCause (s : State) : (s.fetched).termCause = s.termCause := rfl
@[simp] theorem State.fetched_faultInfo (s : State) : (s.fetched).faultInfo = s.faultInfo := rfl
@[simp] theorem State.fetched_respOvf (s : State) : (s.fetched).respOvf = s.respOvf := rfl
@[simp] theorem State.fetched_pollT (s : State) : (s.fetched).pollT = s.pollT := rfl
@[simp] theorem State.fetched_clkO (s : State) : (s.fetched).clkO = s.clkO := rfl
@[simp] theorem State.fetched_dataO (s : State) : (s.fetched).dataO = s.dataO := rfl
@[simp] theorem State.fetched_cmd (s : State) : (s.fetched).cmd = s.cmd := rfl
@[simp] theorem State.fetched_stopI (s : State) : (s.fetched).stopI = s.stopI := rfl
@[simp] theorem State.fetched_rtcI (s : State) : (s.fetched).rtcI = s.rtcI := rfl
@[simp] theorem State.fetched_resetI (s : State) : (s.fetched).resetI = s.resetI := rfl
@[simp] theorem State.fetched_dataI (s : State) : (s.fetched).dataI = s.dataI := rfl
@[simp] theorem State.fetched_lineI (s : State) : (s.fetched).lineI = s.lineI := rfl
@[simp] theorem State.fetched_schedule (s : State) : (s.fetched).schedule = s.schedule := rfl
@[simp] theorem State.fetched_resp (s : State) : (s.fetched).resp = s.resp := rfl
@[simp] theorem State.fetched_diag (s : State) : (s.fetched).diag = s.diag := rfl
@[simp] theorem State.fetched_trace (s : State) : (s.fetched).trace = s.trace := rfl
@[simp] theorem State.fetched_call (s : State) : (s.fetched).call = none := rfl
@[simp] theorem State.fetched_ret (s : State) : (s.fetched).ret = s.ret := rfl
@[simp] theorem State.fetched_sampleCtr (s : State) : (s.fetched).sampleCtr = s.sampleCtr := rfl
@[simp] theorem State.fetched_freeCtr (s : State) : (s.fetched).freeCtr = s.freeCtr := rfl

/-! ## `State.halt` -/

@[simp] theorem State.halt_par (s : State) (c : HaltCause) : (s.halt c).par = s.par := rfl
@[simp] theorem State.halt_flags (s : State) (c : HaltCause) : (s.halt c).flags = s.flags := rfl
@[simp] theorem State.halt_seq (s : State) (c : HaltCause) : (s.halt c).seq = seqStopped := rfl
@[simp] theorem State.halt_record (s : State) (c : HaltCause) : (s.halt c).record = s.record := rfl
@[simp] theorem State.halt_unk (s : State) (c : HaltCause) : (s.halt c).unk = s.unk := rfl
@[simp] theorem State.halt_termCause (s : State) (c : HaltCause) : (s.halt c).termCause = haltCauseOf c := rfl
@[simp] theorem State.halt_faultInfo (s : State) (c : HaltCause) : (s.halt c).faultInfo = s.faultInfo := rfl
@[simp] theorem State.halt_respOvf (s : State) (c : HaltCause) : (s.halt c).respOvf = s.respOvf := rfl
@[simp] theorem State.halt_pollT (s : State) (c : HaltCause) : (s.halt c).pollT = s.pollT := rfl
@[simp] theorem State.halt_clkO (s : State) (c : HaltCause) : (s.halt c).clkO = s.clkO := rfl
@[simp] theorem State.halt_dataO (s : State) (c : HaltCause) : (s.halt c).dataO = s.dataO := rfl
@[simp] theorem State.halt_cmd (s : State) (c : HaltCause) : (s.halt c).cmd = s.cmd := rfl
@[simp] theorem State.halt_stopI (s : State) (c : HaltCause) : (s.halt c).stopI = s.stopI := rfl
@[simp] theorem State.halt_rtcI (s : State) (c : HaltCause) : (s.halt c).rtcI = s.rtcI := rfl
@[simp] theorem State.halt_resetI (s : State) (c : HaltCause) : (s.halt c).resetI = s.resetI := rfl
@[simp] theorem State.halt_dataI (s : State) (c : HaltCause) : (s.halt c).dataI = s.dataI := rfl
@[simp] theorem State.halt_lineI (s : State) (c : HaltCause) : (s.halt c).lineI = s.lineI := rfl
@[simp] theorem State.halt_schedule (s : State) (c : HaltCause) : (s.halt c).schedule = s.schedule := rfl
@[simp] theorem State.halt_resp (s : State) (c : HaltCause) : (s.halt c).resp = s.resp := rfl
@[simp] theorem State.halt_diag (s : State) (c : HaltCause) : (s.halt c).diag = s.diag := rfl
@[simp] theorem State.halt_trace (s : State) (c : HaltCause) : (s.halt c).trace = s.trace ++ [.halt (haltCauseOf c)] := rfl
@[simp] theorem State.halt_call (s : State) (c : HaltCause) : (s.halt c).call = s.call := rfl
@[simp] theorem State.halt_ret (s : State) (c : HaltCause) : (s.halt c).ret = s.ret := rfl
@[simp] theorem State.halt_sampleCtr (s : State) (c : HaltCause) : (s.halt c).sampleCtr = s.sampleCtr := rfl
@[simp] theorem State.halt_freeCtr (s : State) (c : HaltCause) : (s.halt c).freeCtr = s.freeCtr := rfl

/-! ## `State.popCmd` -/

@[simp] theorem State.popCmd_par (s : State) (k : Token) (rest : List Token) : (s.popCmd k rest).par = s.par := rfl
@[simp] theorem State.popCmd_flags (s : State) (k : Token) (rest : List Token) : (s.popCmd k rest).flags = s.flags := rfl
@[simp] theorem State.popCmd_seq (s : State) (k : Token) (rest : List Token) : (s.popCmd k rest).seq = s.seq := rfl
@[simp] theorem State.popCmd_record (s : State) (k : Token) (rest : List Token) : (s.popCmd k rest).record = s.record := rfl
@[simp] theorem State.popCmd_unk (s : State) (k : Token) (rest : List Token) : (s.popCmd k rest).unk = s.unk := rfl
@[simp] theorem State.popCmd_termCause (s : State) (k : Token) (rest : List Token) :
    (s.popCmd k rest).termCause = s.termCause := rfl
@[simp] theorem State.popCmd_faultInfo (s : State) (k : Token) (rest : List Token) :
    (s.popCmd k rest).faultInfo = s.faultInfo := rfl
@[simp] theorem State.popCmd_respOvf (s : State) (k : Token) (rest : List Token) : (s.popCmd k rest).respOvf = s.respOvf := rfl
@[simp] theorem State.popCmd_pollT (s : State) (k : Token) (rest : List Token) : (s.popCmd k rest).pollT = s.pollT := rfl
@[simp] theorem State.popCmd_clkO (s : State) (k : Token) (rest : List Token) : (s.popCmd k rest).clkO = s.clkO := rfl
@[simp] theorem State.popCmd_dataO (s : State) (k : Token) (rest : List Token) : (s.popCmd k rest).dataO = s.dataO := rfl
@[simp] theorem State.popCmd_cmd (s : State) (k : Token) (rest : List Token) : (s.popCmd k rest).cmd = rest := rfl
@[simp] theorem State.popCmd_stopI (s : State) (k : Token) (rest : List Token) : (s.popCmd k rest).stopI = s.stopI := rfl
@[simp] theorem State.popCmd_rtcI (s : State) (k : Token) (rest : List Token) : (s.popCmd k rest).rtcI = s.rtcI := rfl
@[simp] theorem State.popCmd_resetI (s : State) (k : Token) (rest : List Token) : (s.popCmd k rest).resetI = s.resetI := rfl
@[simp] theorem State.popCmd_dataI (s : State) (k : Token) (rest : List Token) : (s.popCmd k rest).dataI = s.dataI := rfl
@[simp] theorem State.popCmd_lineI (s : State) (k : Token) (rest : List Token) : (s.popCmd k rest).lineI = s.lineI := rfl
@[simp] theorem State.popCmd_schedule (s : State) (k : Token) (rest : List Token) :
    (s.popCmd k rest).schedule = s.schedule := rfl
@[simp] theorem State.popCmd_resp (s : State) (k : Token) (rest : List Token) : (s.popCmd k rest).resp = s.resp := rfl
@[simp] theorem State.popCmd_diag (s : State) (k : Token) (rest : List Token) : (s.popCmd k rest).diag = s.diag := rfl
@[simp] theorem State.popCmd_trace (s : State) (k : Token) (rest : List Token) :
    (s.popCmd k rest).trace = s.trace ++ [.pop k] := rfl
@[simp] theorem State.popCmd_call (s : State) (k : Token) (rest : List Token) : (s.popCmd k rest).call = s.call := rfl
@[simp] theorem State.popCmd_ret (s : State) (k : Token) (rest : List Token) : (s.popCmd k rest).ret = s.ret := rfl
@[simp] theorem State.popCmd_sampleCtr (s : State) (k : Token) (rest : List Token) :
    (s.popCmd k rest).sampleCtr = s.sampleCtr := rfl
@[simp] theorem State.popCmd_freeCtr (s : State) (k : Token) (rest : List Token) : (s.popCmd k rest).freeCtr = s.freeCtr := rfl

/-! ## `State.exchanged` -/

@[simp] theorem State.exchanged_par (s : State) (m n : Nat) (es : List Entry) (ev : List Event) :
    (s.exchanged m n es ev).par = s.par := rfl
@[simp] theorem State.exchanged_flags (s : State) (m n : Nat) (es : List Entry) (ev : List Event) :
    (s.exchanged m n es ev).flags = s.flags := rfl
@[simp] theorem State.exchanged_seq (s : State) (m n : Nat) (es : List Entry) (ev : List Event) :
    (s.exchanged m n es ev).seq = s.seq := rfl
@[simp] theorem State.exchanged_record (s : State) (m n : Nat) (es : List Entry) (ev : List Event) :
    (s.exchanged m n es ev).record = s.record ++ es := rfl
@[simp] theorem State.exchanged_unk (s : State) (m n : Nat) (es : List Entry) (ev : List Event) :
    (s.exchanged m n es ev).unk = s.unk := rfl
@[simp] theorem State.exchanged_termCause (s : State) (m n : Nat) (es : List Entry) (ev : List Event) :
    (s.exchanged m n es ev).termCause = s.termCause := rfl
@[simp] theorem State.exchanged_faultInfo (s : State) (m n : Nat) (es : List Entry) (ev : List Event) :
    (s.exchanged m n es ev).faultInfo = s.faultInfo := rfl
@[simp] theorem State.exchanged_respOvf (s : State) (m n : Nat) (es : List Entry) (ev : List Event) :
    (s.exchanged m n es ev).respOvf = s.respOvf := rfl
@[simp] theorem State.exchanged_pollT (s : State) (m n : Nat) (es : List Entry) (ev : List Event) :
    (s.exchanged m n es ev).pollT = s.pollT := rfl
@[simp] theorem State.exchanged_clkO (s : State) (m n : Nat) (es : List Entry) (ev : List Event) :
    (s.exchanged m n es ev).clkO = true := rfl
@[simp] theorem State.exchanged_dataO (s : State) (m n : Nat) (es : List Entry) (ev : List Event) :
    (s.exchanged m n es ev).dataO = true := rfl
@[simp] theorem State.exchanged_cmd (s : State) (m n : Nat) (es : List Entry) (ev : List Event) :
    (s.exchanged m n es ev).cmd = s.cmd := rfl
@[simp] theorem State.exchanged_stopI (s : State) (m n : Nat) (es : List Entry) (ev : List Event) :
    (s.exchanged m n es ev).stopI = s.stopI := rfl
@[simp] theorem State.exchanged_rtcI (s : State) (m n : Nat) (es : List Entry) (ev : List Event) :
    (s.exchanged m n es ev).rtcI = s.rtcI := rfl
@[simp] theorem State.exchanged_resetI (s : State) (m n : Nat) (es : List Entry) (ev : List Event) :
    (s.exchanged m n es ev).resetI = s.resetI := rfl
@[simp] theorem State.exchanged_dataI (s : State) (m n : Nat) (es : List Entry) (ev : List Event) :
    (s.exchanged m n es ev).dataI = s.dataI.drop m := rfl
@[simp] theorem State.exchanged_lineI (s : State) (m n : Nat) (es : List Entry) (ev : List Event) :
    (s.exchanged m n es ev).lineI = s.lineI.drop n := rfl
@[simp] theorem State.exchanged_schedule (s : State) (m n : Nat) (es : List Entry) (ev : List Event) :
    (s.exchanged m n es ev).schedule = s.schedule := rfl
@[simp] theorem State.exchanged_resp (s : State) (m n : Nat) (es : List Entry) (ev : List Event) :
    (s.exchanged m n es ev).resp = s.resp := rfl
@[simp] theorem State.exchanged_diag (s : State) (m n : Nat) (es : List Entry) (ev : List Event) :
    (s.exchanged m n es ev).diag = s.diag := rfl
@[simp] theorem State.exchanged_trace (s : State) (m n : Nat) (es : List Entry) (ev : List Event) :
    (s.exchanged m n es ev).trace = s.trace ++ ev := rfl
@[simp] theorem State.exchanged_call (s : State) (m n : Nat) (es : List Entry) (ev : List Event) :
    (s.exchanged m n es ev).call = s.call := rfl
@[simp] theorem State.exchanged_ret (s : State) (m n : Nat) (es : List Entry) (ev : List Event) :
    (s.exchanged m n es ev).ret = s.ret := rfl
@[simp] theorem State.exchanged_sampleCtr (s : State) (m n : Nat) (es : List Entry) (ev : List Event) :
    (s.exchanged m n es ev).sampleCtr = s.sampleCtr + m := rfl
@[simp] theorem State.exchanged_freeCtr (s : State) (m n : Nat) (es : List Entry) (ev : List Event) :
    (s.exchanged m n es ev).freeCtr = s.freeCtr := rfl

/-! ## `State.emitResp` -/

@[simp] theorem State.emitResp_par (s : State) (l : Label) : (s.emitResp l).par = s.par := by
  unfold State.emitResp; split <;> rfl
@[simp] theorem State.emitResp_flags (s : State) (l : Label) : (s.emitResp l).flags = s.flags := by
  unfold State.emitResp; split <;> rfl
@[simp] theorem State.emitResp_seq (s : State) (l : Label) : (s.emitResp l).seq = s.seq := by
  unfold State.emitResp; split <;> rfl
@[simp] theorem State.emitResp_record (s : State) (l : Label) : (s.emitResp l).record = s.record := by
  unfold State.emitResp; split <;> rfl
@[simp] theorem State.emitResp_unk (s : State) (l : Label) : (s.emitResp l).unk = s.unk := by
  unfold State.emitResp; split <;> rfl
@[simp] theorem State.emitResp_termCause (s : State) (l : Label) : (s.emitResp l).termCause = s.termCause := by
  unfold State.emitResp; split <;> rfl
@[simp] theorem State.emitResp_faultInfo (s : State) (l : Label) : (s.emitResp l).faultInfo = s.faultInfo := by
  unfold State.emitResp; split <;> rfl
@[simp] theorem State.emitResp_respOvf (s : State) (l : Label) :
    (s.emitResp l).respOvf = if s.resp.length < s.par.respCap then s.respOvf else true := by
  unfold State.emitResp; split <;> rfl
@[simp] theorem State.emitResp_pollT (s : State) (l : Label) : (s.emitResp l).pollT = s.pollT := by
  unfold State.emitResp; split <;> rfl
@[simp] theorem State.emitResp_clkO (s : State) (l : Label) : (s.emitResp l).clkO = s.clkO := by
  unfold State.emitResp; split <;> rfl
@[simp] theorem State.emitResp_dataO (s : State) (l : Label) : (s.emitResp l).dataO = s.dataO := by
  unfold State.emitResp; split <;> rfl
@[simp] theorem State.emitResp_cmd (s : State) (l : Label) : (s.emitResp l).cmd = s.cmd := by
  unfold State.emitResp; split <;> rfl
@[simp] theorem State.emitResp_stopI (s : State) (l : Label) : (s.emitResp l).stopI = s.stopI := by
  unfold State.emitResp; split <;> rfl
@[simp] theorem State.emitResp_rtcI (s : State) (l : Label) : (s.emitResp l).rtcI = s.rtcI := by
  unfold State.emitResp; split <;> rfl
@[simp] theorem State.emitResp_resetI (s : State) (l : Label) : (s.emitResp l).resetI = s.resetI := by
  unfold State.emitResp; split <;> rfl
@[simp] theorem State.emitResp_dataI (s : State) (l : Label) : (s.emitResp l).dataI = s.dataI := by
  unfold State.emitResp; split <;> rfl
@[simp] theorem State.emitResp_lineI (s : State) (l : Label) : (s.emitResp l).lineI = s.lineI := by
  unfold State.emitResp; split <;> rfl
@[simp] theorem State.emitResp_schedule (s : State) (l : Label) : (s.emitResp l).schedule = s.schedule := by
  unfold State.emitResp; split <;> rfl
@[simp] theorem State.emitResp_resp (s : State) (l : Label) :
    (s.emitResp l).resp = if s.resp.length < s.par.respCap then s.resp ++ [l] else s.resp := by
  unfold State.emitResp; split <;> rfl
@[simp] theorem State.emitResp_diag (s : State) (l : Label) : (s.emitResp l).diag = s.diag := by
  unfold State.emitResp; split <;> rfl
@[simp] theorem State.emitResp_trace (s : State) (l : Label) :
    (s.emitResp l).trace = if s.resp.length < s.par.respCap then s.trace ++ [.resp l] else s.trace := by
  unfold State.emitResp; split <;> rfl
@[simp] theorem State.emitResp_call (s : State) (l : Label) : (s.emitResp l).call = s.call := by
  unfold State.emitResp; split <;> rfl
@[simp] theorem State.emitResp_ret (s : State) (l : Label) : (s.emitResp l).ret = s.ret := by
  unfold State.emitResp; split <;> rfl
@[simp] theorem State.emitResp_sampleCtr (s : State) (l : Label) : (s.emitResp l).sampleCtr = s.sampleCtr := by
  unfold State.emitResp; split <;> rfl
@[simp] theorem State.emitResp_freeCtr (s : State) (l : Label) : (s.emitResp l).freeCtr = s.freeCtr := by
  unfold State.emitResp; split <;> rfl

/-! ## `State.cycleStart` -/

@[simp] theorem State.cycleStart_par (s : State) : (s.cycleStart).par = s.par := by
  unfold State.cycleStart; split <;> rfl
@[simp] theorem State.cycleStart_flags (s : State) :
    (s.cycleStart).flags = if s.par.flagsMutable then Config.freeFlags s.freeCtr else s.flags := by
  unfold State.cycleStart; split <;> rfl
@[simp] theorem State.cycleStart_seq (s : State) : (s.cycleStart).seq = mkSeq .cycle .part .main := by
  unfold State.cycleStart; split <;> rfl
@[simp] theorem State.cycleStart_record (s : State) : (s.cycleStart).record = s.record := by
  unfold State.cycleStart; split <;> rfl
@[simp] theorem State.cycleStart_unk (s : State) : (s.cycleStart).unk = s.unk := by
  unfold State.cycleStart; split <;> rfl
@[simp] theorem State.cycleStart_termCause (s : State) : (s.cycleStart).termCause = s.termCause := by
  unfold State.cycleStart; split <;> rfl
@[simp] theorem State.cycleStart_faultInfo (s : State) : (s.cycleStart).faultInfo = s.faultInfo := by
  unfold State.cycleStart; split <;> rfl
@[simp] theorem State.cycleStart_respOvf (s : State) : (s.cycleStart).respOvf = s.respOvf := by
  unfold State.cycleStart; split <;> rfl
@[simp] theorem State.cycleStart_pollT (s : State) : (s.cycleStart).pollT = s.pollT := by
  unfold State.cycleStart; split <;> rfl
@[simp] theorem State.cycleStart_clkO (s : State) : (s.cycleStart).clkO = s.clkO := by
  unfold State.cycleStart; split <;> rfl
@[simp] theorem State.cycleStart_dataO (s : State) : (s.cycleStart).dataO = s.dataO := by
  unfold State.cycleStart; split <;> rfl
@[simp] theorem State.cycleStart_cmd (s : State) : (s.cycleStart).cmd = s.cmd := by
  unfold State.cycleStart; split <;> rfl
@[simp] theorem State.cycleStart_stopI (s : State) : (s.cycleStart).stopI = s.stopI := by
  unfold State.cycleStart; split <;> rfl
@[simp] theorem State.cycleStart_rtcI (s : State) : (s.cycleStart).rtcI = s.rtcI := by
  unfold State.cycleStart; split <;> rfl
@[simp] theorem State.cycleStart_resetI (s : State) : (s.cycleStart).resetI = s.resetI := by
  unfold State.cycleStart; split <;> rfl
@[simp] theorem State.cycleStart_dataI (s : State) : (s.cycleStart).dataI = s.dataI := by
  unfold State.cycleStart; split <;> rfl
@[simp] theorem State.cycleStart_lineI (s : State) : (s.cycleStart).lineI = s.lineI := by
  unfold State.cycleStart; split <;> rfl
@[simp] theorem State.cycleStart_schedule (s : State) : (s.cycleStart).schedule = s.schedule := by
  unfold State.cycleStart; split <;> rfl
@[simp] theorem State.cycleStart_resp (s : State) : (s.cycleStart).resp = s.resp := by
  unfold State.cycleStart; split <;> rfl
@[simp] theorem State.cycleStart_diag (s : State) : (s.cycleStart).diag = s.diag := by
  unfold State.cycleStart; split <;> rfl
@[simp] theorem State.cycleStart_trace (s : State) : (s.cycleStart).trace = s.trace := by
  unfold State.cycleStart; split <;> rfl
@[simp] theorem State.cycleStart_call (s : State) : (s.cycleStart).call = s.call := by
  unfold State.cycleStart; split <;> rfl
@[simp] theorem State.cycleStart_ret (s : State) : (s.cycleStart).ret = s.ret := by
  unfold State.cycleStart; split <;> rfl
@[simp] theorem State.cycleStart_sampleCtr (s : State) : (s.cycleStart).sampleCtr = s.sampleCtr := by
  unfold State.cycleStart; split <;> rfl
@[simp] theorem State.cycleStart_freeCtr (s : State) :
    (s.cycleStart).freeCtr = if s.par.flagsMutable then s.freeCtr + 1 else s.freeCtr := by
  unfold State.cycleStart; split <;> rfl

/-! ## `State.voidTest` -/

@[simp] theorem State.voidTest_par (s : State) (r : Byte) : (s.voidTest r).par = s.par := by
  unfold State.voidTest; split <;> simp
@[simp] theorem State.voidTest_flags (s : State) (r : Byte) : (s.voidTest r).flags = s.flags := by
  unfold State.voidTest; split <;> simp
@[simp] theorem State.voidTest_seq (s : State) (r : Byte) : (s.voidTest r).seq = s.seq := by
  unfold State.voidTest; split <;> simp
@[simp] theorem State.voidTest_record (s : State) (r : Byte) : (s.voidTest r).record = s.record := by
  unfold State.voidTest; split <;> simp
@[simp] theorem State.voidTest_unk (s : State) (r : Byte) : (s.voidTest r).unk = s.unk := by
  unfold State.voidTest; split <;> simp
@[simp] theorem State.voidTest_termCause (s : State) (r : Byte) : (s.voidTest r).termCause = s.termCause := by
  unfold State.voidTest; split <;> simp
@[simp] theorem State.voidTest_faultInfo (s : State) (r : Byte) : (s.voidTest r).faultInfo = s.faultInfo := by
  unfold State.voidTest; split <;> simp
@[simp] theorem State.voidTest_pollT (s : State) (r : Byte) : (s.voidTest r).pollT = s.pollT := by
  unfold State.voidTest; split <;> simp
@[simp] theorem State.voidTest_clkO (s : State) (r : Byte) : (s.voidTest r).clkO = s.clkO := by
  unfold State.voidTest; split <;> simp
@[simp] theorem State.voidTest_dataO (s : State) (r : Byte) : (s.voidTest r).dataO = s.dataO := by
  unfold State.voidTest; split <;> simp
@[simp] theorem State.voidTest_cmd (s : State) (r : Byte) : (s.voidTest r).cmd = s.cmd := by
  unfold State.voidTest; split <;> simp
@[simp] theorem State.voidTest_stopI (s : State) (r : Byte) : (s.voidTest r).stopI = s.stopI := by
  unfold State.voidTest; split <;> simp
@[simp] theorem State.voidTest_rtcI (s : State) (r : Byte) : (s.voidTest r).rtcI = s.rtcI := by
  unfold State.voidTest; split <;> simp
@[simp] theorem State.voidTest_resetI (s : State) (r : Byte) : (s.voidTest r).resetI = s.resetI := by
  unfold State.voidTest; split <;> simp
@[simp] theorem State.voidTest_dataI (s : State) (r : Byte) : (s.voidTest r).dataI = s.dataI := by
  unfold State.voidTest; split <;> simp
@[simp] theorem State.voidTest_lineI (s : State) (r : Byte) : (s.voidTest r).lineI = s.lineI := by
  unfold State.voidTest; split <;> simp
@[simp] theorem State.voidTest_schedule (s : State) (r : Byte) : (s.voidTest r).schedule = s.schedule := by
  unfold State.voidTest; split <;> simp
@[simp] theorem State.voidTest_diag (s : State) (r : Byte) : (s.voidTest r).diag = s.diag := by
  unfold State.voidTest; split <;> simp
@[simp] theorem State.voidTest_call (s : State) (r : Byte) : (s.voidTest r).call = s.call := by
  unfold State.voidTest; split <;> simp
@[simp] theorem State.voidTest_ret (s : State) (r : Byte) : (s.voidTest r).ret = s.ret := by
  unfold State.voidTest; split <;> simp
@[simp] theorem State.voidTest_sampleCtr (s : State) (r : Byte) : (s.voidTest r).sampleCtr = s.sampleCtr := by
  unfold State.voidTest; split <;> simp
@[simp] theorem State.voidTest_freeCtr (s : State) (r : Byte) : (s.voidTest r).freeCtr = s.freeCtr := by
  unfold State.voidTest; split <;> simp

/-! ## `State.leaveStep` -/

@[simp] theorem State.leaveStep_par (s : State) (p : Step) : (s.leaveStep p).par = s.par := by
  cases p <;> rfl
@[simp] theorem State.leaveStep_flags (s : State) (p : Step) : (s.leaveStep p).flags = s.flags := by
  cases p <;> rfl
@[simp] theorem State.leaveStep_record (s : State) (p : Step) : (s.leaveStep p).record = s.record := by
  cases p <;> rfl
@[simp] theorem State.leaveStep_unk (s : State) (p : Step) : (s.leaveStep p).unk = s.unk := by
  cases p <;> rfl
@[simp] theorem State.leaveStep_termCause (s : State) (p : Step) : (s.leaveStep p).termCause = s.termCause := by
  cases p <;> rfl
@[simp] theorem State.leaveStep_faultInfo (s : State) (p : Step) : (s.leaveStep p).faultInfo = s.faultInfo := by
  cases p <;> rfl
@[simp] theorem State.leaveStep_respOvf (s : State) (p : Step) : (s.leaveStep p).respOvf = s.respOvf := by
  cases p <;> rfl
@[simp] theorem State.leaveStep_clkO (s : State) (p : Step) : (s.leaveStep p).clkO = s.clkO := by
  cases p <;> rfl
@[simp] theorem State.leaveStep_dataO (s : State) (p : Step) : (s.leaveStep p).dataO = s.dataO := by
  cases p <;> rfl
@[simp] theorem State.leaveStep_cmd (s : State) (p : Step) : (s.leaveStep p).cmd = s.cmd := by
  cases p <;> rfl
@[simp] theorem State.leaveStep_stopI (s : State) (p : Step) : (s.leaveStep p).stopI = s.stopI := by
  cases p <;> rfl
@[simp] theorem State.leaveStep_rtcI (s : State) (p : Step) : (s.leaveStep p).rtcI = s.rtcI := by
  cases p <;> rfl
@[simp] theorem State.leaveStep_resetI (s : State) (p : Step) : (s.leaveStep p).resetI = s.resetI := by
  cases p <;> rfl
@[simp] theorem State.leaveStep_dataI (s : State) (p : Step) : (s.leaveStep p).dataI = s.dataI := by
  cases p <;> rfl
@[simp] theorem State.leaveStep_lineI (s : State) (p : Step) : (s.leaveStep p).lineI = s.lineI := by
  cases p <;> rfl
@[simp] theorem State.leaveStep_schedule (s : State) (p : Step) : (s.leaveStep p).schedule = s.schedule := by
  cases p <;> rfl
@[simp] theorem State.leaveStep_resp (s : State) (p : Step) : (s.leaveStep p).resp = s.resp := by
  cases p <;> rfl
@[simp] theorem State.leaveStep_diag (s : State) (p : Step) : (s.leaveStep p).diag = s.diag := by
  cases p <;> rfl
@[simp] theorem State.leaveStep_trace (s : State) (p : Step) : (s.leaveStep p).trace = s.trace := by
  cases p <;> rfl
@[simp] theorem State.leaveStep_call (s : State) (p : Step) : (s.leaveStep p).call = s.call := by
  cases p <;> rfl
@[simp] theorem State.leaveStep_ret (s : State) (p : Step) : (s.leaveStep p).ret = s.ret := by
  cases p <;> rfl
@[simp] theorem State.leaveStep_sampleCtr (s : State) (p : Step) : (s.leaveStep p).sampleCtr = s.sampleCtr := by
  cases p <;> rfl
@[simp] theorem State.leaveStep_freeCtr (s : State) (p : Step) : (s.leaveStep p).freeCtr = s.freeCtr := by
  cases p <;> rfl

end Sys2Proof.Machine
end

