-- ==== Sys2Proof/Laws/Codec.lean ====
section
/-!
SUPPORT. The builders' pseudocode gives the wire formats (30_encoding.md R58 to R63), the status byte is the flags register, and
received bytes are assembled most significant first.
-/

namespace Sys2Proof.Machine

theorem sumBytes_toNat (f : List Byte) : (sumBytes f).toNat = (f.map BitVec.toNat).sum % 256 := by
  induction f with
  | nil => rfl
  | cons b f ih => simp [sumBytes, ih]

/-- The exact sum reduced modulo 256 (R92) is the wrapping sum of the format (R63). -/
theorem checksum_eq_withSum (f : List Byte) : checksum f = withSum f := by
  have : BitVec.ofNat 8 ((f.map BitVec.toNat).sum % 256) = sumBytes f := by
    apply BitVec.eq_of_toNat_eq
    simp [sumBytes_toNat]
  rw [checksum, withSum, this]

theorem buildPart_eq (p : KftParams) (st : Byte) : buildPart p st = partFormat p st := rfl

theorem buildZone_eq (st : Byte) : buildZone st = zoneFormat st := by
  rw [buildZone, checksum_eq_withSum]; rfl

theorem buildLights_eq (p : KftParams) (st : Byte) : buildLights p st = lightsFormat p st := by
  rw [buildLights, checksum_eq_withSum]; rfl

theorem buildQuery_eq (p : KftParams) : buildQuery p = queryFormat p := rfl

theorem inRange_iff (t : DateTime) : t.inRange = true ↔
    t.y ≤ 99 ∧ 1 ≤ t.mo ∧ t.mo ≤ 12 ∧ 1 ≤ t.d ∧ t.d ≤ 31 ∧ t.h ≤ 23 ∧ t.mi ≤ 59 := by
  simp [DateTime.inRange, and_assoc]

theorem dtByte1_fields : ∀ y : Fin 100,
    (BitVec.ofNat 8 (((y.val / 10) <<< 4) ||| (y.val % 10)) = BitVec.ofNat 4 (y.val / 10) ++ BitVec.ofNat 4 (y.val % 10)) := by
  decide

theorem dtByte2_fields : ∀ (mo : Fin 13) (d : Fin 32),
    BitVec.ofNat 8 (((mo.val <<< 2) &&& 0x3C) ||| ((d.val &&& 0b11000) >>> 3)) =
      0#2 ++ BitVec.ofNat 4 mo.val ++ (BitVec.ofNat 5 d.val).extractLsb' 3 2 := by
  decide

theorem dtByte3_fields : ∀ (d : Fin 32) (h : Fin 24),
    BitVec.ofNat 8 (((d.val &&& 0b00111) <<< 5) ||| (h.val &&& 0x1F)) =
      (BitVec.ofNat 5 d.val).extractLsb' 0 3 ++ BitVec.ofNat 5 h.val := by
  decide

theorem dtByte4_fields : ∀ mi : Fin 60, BitVec.ofNat 8 (mi.val <<< 2) = BitVec.ofNat 6 mi.val ++ 0#2 := by
  decide

/-- For fields in range the quoted formulas give the bit layout of R67. -/
theorem dtBytes_eq_packBits {t : DateTime} (h : t.inRange = true) :
    [dtByte1 t, dtByte2 t, dtByte3 t, dtByte4 t] = packBits t := by
  obtain ⟨hy, -, hmo, -, hd, hh, hmi⟩ := (inRange_iff t).mp h
  have h1 := dtByte1_fields ⟨t.y, by omega⟩
  have h2 := dtByte2_fields ⟨t.mo, by omega⟩ ⟨t.d, by omega⟩
  have h3 := dtByte3_fields ⟨t.d, by omega⟩ ⟨t.h, by omega⟩
  have h4 := dtByte4_fields ⟨t.mi, by omega⟩
  simp only at h1 h2 h3 h4
  simp only [dtByte1, dtByte2, dtByte3, dtByte4, packBits, h1, h2, h3, h4]

theorem buildDt_eq (p : KftParams) {t : DateTime} (h : t.inRange = true) : buildDt p t = dtFormat p t := by
  rw [buildDt, checksum_eq_withSum, dtFormat, ← dtBytes_eq_packBits h]; rfl

/-- The status byte is the flags register, bit for bit (R101). -/
theorem statusByte_eq (f : BitVec 8) : statusByte f = f := by
  have : ∀ n : Fin 256, statusByte (BitVec.ofNat 8 n) = BitVec.ofNat 8 n := by decide +kernel
  simpa using this ⟨f.toNat, f.isLt⟩

/-- R43: of eight samples, the k-th from the end is bit k. -/
theorem assemble_bits (b7 b6 b5 b4 b3 b2 b1 b0 : Level) :
    let r := assemble [b7, b6, b5, b4, b3, b2, b1, b0]
    r.getLsbD 7 = b7 ∧ r.getLsbD 6 = b6 ∧ r.getLsbD 5 = b5 ∧ r.getLsbD 4 = b4 ∧ r.getLsbD 3 = b3 ∧
      r.getLsbD 2 = b2 ∧ r.getLsbD 1 = b1 ∧ r.getLsbD 0 = b0 := by
  revert b7 b6 b5 b4 b3 b2 b1 b0
  decide +kernel

/-- R43, for the byte slot whose first sample comes after the next `n`. -/
theorem rcvFrom_getLsbD (s : State) (n k : Nat) (hk : k < 8) :
    (s.rcvFrom n).getLsbD k = s.sampleAt (n + (7 - k)) := by
  have hs : s.samplesFrom n 8 = [s.sampleAt n, s.sampleAt (n + 1), s.sampleAt (n + 2), s.sampleAt (n + 3),
      s.sampleAt (n + 4), s.sampleAt (n + 5), s.sampleAt (n + 6), s.sampleAt (n + 7)] := rfl
  have hb := assemble_bits (s.sampleAt n) (s.sampleAt (n + 1)) (s.sampleAt (n + 2)) (s.sampleAt (n + 3))
    (s.sampleAt (n + 4)) (s.sampleAt (n + 5)) (s.sampleAt (n + 6)) (s.sampleAt (n + 7))
  rw [State.rcvFrom, hs]
  interval_cases k <;> simp_all

end Sys2Proof.Machine
end

