-- ==== Sys2Proof/Laws/Decode.lean ====
section
/-!
SUPPORT. The fields of SEQ words, and what the decoder's parts give.
-/

namespace Sys2Proof

@[simp] theorem seqPhase_mkSeq (ph : Phase) (p : Step) (u : Sub) : seqPhase (mkSeq ph p u) = ph := by
  cases ph <;> cases p <;> cases u <;> rfl

@[simp] theorem seqStep_mkSeq (ph : Phase) (p : Step) (u : Sub) : seqStep (mkSeq ph p u) = p := by
  cases ph <;> cases p <;> cases u <;> rfl

@[simp] theorem seqSub_mkSeq (ph : Phase) (p : Step) (u : Sub) : seqSub (mkSeq ph p u) = some u := by
  cases ph <;> cases p <;> cases u <;> rfl

/-- A SEQ word with no reserved SUB is made of its fields. -/
theorem mkSeq_fields {w : BitVec 6} {u : Sub} (h : seqSub w = some u) : mkSeq (seqPhase w) (seqStep w) u = w := by
  have : ∀ n : Fin 64, ∀ u ∈ [Sub.main, .query, .post], seqSub (BitVec.ofNat 6 n) = some u →
      mkSeq (seqPhase (BitVec.ofNat 6 n)) (seqStep (BitVec.ofNat 6 n)) u = BitVec.ofNat 6 n := by decide
  have hu : u ∈ [Sub.main, .query, .post] := by cases u <;> simp
  have := this ⟨w.toNat, w.isLt⟩ u hu
  simp only [BitVec.ofNat_toNat, BitVec.setWidth_eq] at this
  exact this h

/-- The decoder of SEQ words agrees with the mask and match columns of spec/opcode_table.json wherever SUB is not reserved, but for
QUERY, which it reads in the zone-lights and datetime steps too (R73, R105; log 24). -/
theorem decodeSeq_table : ∀ n : Fin 64, let w := BitVec.ofNat 6 n
    w &&& 0x30#6 = 0x30#6 ∨
    ((w &&& 0x03#6 = 0x00#6 ↔ decodeSeq w = .ok .poll) ∧ (w &&& 0x3F#6 = 0x01#6 ↔ decodeSeq w = .ok .stepPart) ∧
      (w &&& 0x3F#6 = 0x05#6 ↔ decodeSeq w = .ok .stepZone) ∧ (w &&& 0x3F#6 = 0x09#6 ↔ decodeSeq w = .ok .stepLights) ∧
      (w &&& 0x3F#6 = 0x0D#6 ↔ decodeSeq w = .ok .stepDt) ∧
      (w &&& 0x33#6 = 0x11#6 ↔ ∃ p ∈ [Step.part, .zone, .lights, .dt], decodeSeq w = .ok (.query p)) ∧
      (w &&& 0x33#6 = 0x21#6 ↔ ∃ p ∈ [Step.part, .zone, .lights, .dt], decodeSeq w = .ok (.post p))) := by
  decide +kernel

/-- The four packed bytes give the fields back (R68). -/
theorem unpackBits_packBits {t : DateTime} (h : t.inRange = true) :
    ∃ b1 b2 b3 b4, packBits t = [b1, b2, b3, b4] ∧ unpackBits b1 b2 b3 b4 = t := by
  obtain ⟨y, mo, d, h', mi⟩ := t
  obtain ⟨hy, -, hmo, -, hd, hh, hmi⟩ := (Machine.inRange_iff _).mp h
  have h1 : ∀ y : Fin 100, 10 * ((BitVec.ofNat 4 (y.val / 10) ++ BitVec.ofNat 4 (y.val % 10)).extractLsb' 4 4).toNat +
      ((BitVec.ofNat 4 (y.val / 10) ++ BitVec.ofNat 4 (y.val % 10)).extractLsb' 0 4).toNat = y.val := by decide
  have h2 : ∀ (mo : Fin 13) (d : Fin 32),
      ((0#2 ++ BitVec.ofNat 4 mo.val ++ (BitVec.ofNat 5 d.val).extractLsb' 3 2).extractLsb' 2 4).toNat = mo.val ∧
      (0#2 ++ BitVec.ofNat 4 mo.val ++ (BitVec.ofNat 5 d.val).extractLsb' 3 2).extractLsb' 0 2 =
        (BitVec.ofNat 5 d.val).extractLsb' 3 2 := by decide
  have h3 : ∀ (d : Fin 32) (h : Fin 24),
      (((BitVec.ofNat 5 d.val).extractLsb' 0 3 ++ BitVec.ofNat 5 h.val).extractLsb' 0 5).toNat = h.val ∧
      ((BitVec.ofNat 5 d.val).extractLsb' 0 3 ++ BitVec.ofNat 5 h.val).extractLsb' 5 3 =
        (BitVec.ofNat 5 d.val).extractLsb' 0 3 := by decide
  have h3' : ∀ d : Fin 32,
      ((BitVec.ofNat 5 d.val).extractLsb' 3 2 ++ (BitVec.ofNat 5 d.val).extractLsb' 0 3).toNat = d.val := by decide
  have h4 : ∀ mi : Fin 60, ((BitVec.ofNat 6 mi.val ++ 0#2).extractLsb' 2 6).toNat = mi.val := by decide
  refine ⟨_, _, _, _, rfl, ?_⟩
  have h1 := h1 ⟨y, by simp at hy; omega⟩
  have h2 := h2 ⟨mo, by simp at hmo; omega⟩ ⟨d, by simp at hd; omega⟩
  have h3 := h3 ⟨d, by simp at hd; omega⟩ ⟨h', by simp at hh; omega⟩
  have h3' := h3' ⟨d, by simp at hd; omega⟩
  have h4 := h4 ⟨mi, by simp at hmi; omega⟩
  simp only [unpackBits, h1, h2.1, h2.2, h3.1, h3.2, h3', h4]

theorem slotBytes_map (bs : List Byte) : slotBytes (bs.map .byte) = some bs := by
  induction bs with
  | nil => rfl
  | cons b bs ih => simp [slotBytes, ih]

theorem eq_map_of_slotBytes {ss : List Slot} : ∀ {bs : List Byte}, slotBytes ss = some bs → ss = bs.map .byte := by
  induction ss with
  | nil => intro bs h; cases h; rfl
  | cons s ss ih =>
    intro bs h
    cases s with
    | bit => cases h
    | byte b =>
      simp only [slotBytes, Option.map_eq_some_iff] at h
      obtain ⟨cs, hc, rfl⟩ := h
      rw [ih hc, List.map_cons]

end Sys2Proof
end

