-- ==== Sys2Proof/Laws/Line.lean ====
section
/-!
SUPPORT. What the line primitives and a run of them do: one lemma for a run that completes, one for a run that ends part-way.
-/

namespace Sys2Proof.Machine

/-! ## The environment's lists move on -/

theorem outcomeAt_congr {s t : State} (h : t.lineI = s.lineI) (n : Nat) : t.outcomeAt n = s.outcomeAt n := by
  simp [State.outcomeAt, h]

theorem outcomeAt_drop {s t : State} {m : Nat} (h : t.lineI = s.lineI.drop m) (n : Nat) :
    t.outcomeAt n = s.outcomeAt (m + n) := by
  simp [State.outcomeAt, h]

theorem sampleAt_drop {s t : State} {m : Nat} (hd : t.dataI = s.dataI.drop m) (hc : t.sampleCtr = s.sampleCtr + m)
    (n : Nat) : t.sampleAt n = s.sampleAt (m + n) := by
  simp [State.sampleAt, hd, hc, Nat.add_assoc]

theorem samplesFrom_drop {s t : State} {m : Nat} (hd : t.dataI = s.dataI.drop m)
    (hc : t.sampleCtr = s.sampleCtr + m) (k n : Nat) : t.samplesFrom k n = s.samplesFrom (m + k) n := by
  simp [State.samplesFrom, sampleAt_drop hd hc, Nat.add_assoc]

theorem rcvFrom_drop {s t : State} {m : Nat} (hd : t.dataI = s.dataI.drop m)
    (hc : t.sampleCtr = s.sampleCtr + m) (k : Nat) : t.rcvFrom k = s.rcvFrom (m + k) := by
  simp [State.rcvFrom, samplesFrom_drop hd hc]

@[simp] theorem samplesFrom_length (s : State) (k n : Nat) : (s.samplesFrom k n).length = n := by
  simp [State.samplesFrom]

theorem samplesFrom_succ (s : State) (k n : Nat) :
    s.samplesFrom k (n + 1) = s.sampleAt k :: s.samplesFrom (k + 1) n := by
  simp [State.samplesFrom, List.range_succ_eq_map, Nat.add_assoc, Nat.add_comm 1]

theorem linesComplete_mono {s : State} {m n : Nat} (h : s.linesComplete n) (hmn : m ≤ n) : s.linesComplete m :=
  fun k hk => h k (Nat.lt_of_lt_of_le hk hmn)

theorem linesComplete_drop {s t : State} {m n : Nat} (h : s.linesComplete (m + n)) (ht : t.lineI = s.lineI.drop m) :
    t.linesComplete n := fun k hk => by
  rw [outcomeAt_drop ht]; exact h _ (by omega)

/-! ## One primitive -/

/-- What an outcome that is not `ok` ends an operation with. -/
def stopOf : LineOutcome → LineOp → Stop
  | .ok, op => .lineFault op
  | .fail, op => .lineFault op
  | .reset, _ => .reset

theorem lineAnswer_ok {s : State} (h : s.outcomeAt 0 = .ok) (op : LineOp) : lineAnswer op s = .done () s.answered := by
  simp [lineAnswer, h]

theorem lineAnswer_stop {s : State} (h : s.outcomeAt 0 ≠ .ok) (op : LineOp) :
    lineAnswer op s = .stop (stopOf (s.outcomeAt 0) op) s.answered := by
  unfold lineAnswer stopOf
  split <;> simp_all

@[simp] theorem LineRes.bind_done {α β : Type} (a : α) (s : State) (k : α → State → LineRes β) :
    (LineRes.done a s).bind k = k a s := rfl

@[simp] theorem LineRes.bind_stop {α β : Type} (c : Stop) (s : State) (k : α → State → LineRes β) :
    (LineRes.stop c s : LineRes α).bind k = .stop c s := rfl

/-! ## A run of primitives -/

/-- The line primitives of a run, in order. -/
def primOps : List Prim → List LineOp
  | [] => []
  | .setClk _ :: ps => .setClk :: primOps ps
  | .setData _ :: ps => .setData :: primOps ps
  | .get :: ps => .get :: primOps ps
  | .wait _ :: ps => primOps ps

/-- How many samples a run takes. -/
def primGets : List Prim → Nat
  | [] => 0
  | .setClk _ :: ps => primGets ps
  | .setData _ :: ps => primGets ps
  | .get :: ps => primGets ps + 1
  | .wait _ :: ps => primGets ps

/-- The events of a run whose first sample comes after the next `k`. -/
def primEvents (s : State) : Nat → List Prim → List Event
  | _, [] => []
  | k, .setClk v :: ps => .clk v :: primEvents s k ps
  | k, .setData v :: ps => .data v :: primEvents s k ps
  | k, .get :: ps => .sample (s.sampleAt k) :: primEvents s (k + 1) ps
  | k, .wait t :: ps => .wait t :: primEvents s k ps

/-- `CLK_O` after a run. -/
def clkAfter (c : Level) : List Prim → Level
  | [] => c
  | .setClk v :: ps => clkAfter v ps
  | .setData _ :: ps => clkAfter c ps
  | .get :: ps => clkAfter c ps
  | .wait _ :: ps => clkAfter c ps

/-- `DATA_O` after a run. -/
def dataAfter (c : Level) : List Prim → Level
  | [] => c
  | .setClk _ :: ps => dataAfter c ps
  | .setData v :: ps => dataAfter v ps
  | .get :: ps => dataAfter c ps
  | .wait _ :: ps => dataAfter c ps

/-- The state after a run that completes. -/
def State.ran (s : State) (ps : List Prim) : State :=
  { s with
    clkO := clkAfter s.clkO ps, dataO := dataAfter s.dataO ps, trace := s.trace ++ primEvents s 0 ps,
    dataI := s.dataI.drop (primGets ps), sampleCtr := s.sampleCtr + primGets ps,
    lineI := s.lineI.drop (primOps ps).length }

theorem primEvents_drop {s t : State} {m : Nat} (hd : t.dataI = s.dataI.drop m) (hc : t.sampleCtr = s.sampleCtr + m)
    (k : Nat) (ps : List Prim) : primEvents t k ps = primEvents s (m + k) ps := by
  induction ps generalizing k with
  | nil => rfl
  | cons p ps ih => cases p <;> simp [primEvents, ih, sampleAt_drop hd hc, Nat.add_assoc]

theorem clkAfter_append (c : Level) (ps qs : List Prim) : clkAfter c (ps ++ qs) = clkAfter (clkAfter c ps) qs := by
  induction ps generalizing c with
  | nil => rfl
  | cons p ps ih => cases p <;> simp [clkAfter, ih]

theorem dataAfter_append (c : Level) (ps qs : List Prim) :
    dataAfter c (ps ++ qs) = dataAfter (dataAfter c ps) qs := by
  induction ps generalizing c with
  | nil => rfl
  | cons p ps ih => cases p <;> simp [dataAfter, ih]

theorem primOps_append (ps qs : List Prim) : primOps (ps ++ qs) = primOps ps ++ primOps qs := by
  induction ps with
  | nil => rfl
  | cons p ps ih => cases p <;> simp [primOps, ih]

/-- A first primitive of a run that completes, and what is left of the run. -/
theorem runPrims_cons_ok {s : State} (p : Prim) (ps : List Prim) (h : s.linesComplete (primOps [p]).length) :
    runPrims (p :: ps) s = (runPrims ps (s.ran [p])).bind fun bs t => .done (s.samplesFrom 0 (primGets [p]) ++ bs) t := by
  have hw : ∀ r : LineRes (List Level), (r.bind fun bs t => .done bs t) = r := fun r => by cases r <;> rfl
  cases p with
  | wait t =>
    have : s.ran [.wait t] = s.delay t := by
      ext1 <;> simp [State.ran, primGets, primOps, primEvents, clkAfter, dataAfter]
    simp [runPrims, this, primGets, State.samplesFrom, hw]
  | setClk v =>
    have h0 := h 0 (by simp [primOps])
    have : s.ran [.setClk v] = s.answered.driveClk v := by
      ext1 <;> simp [State.ran, primGets, primOps, primEvents, clkAfter, dataAfter]
    simp [runPrims, lineSetClk, lineAnswer_ok h0, this, primGets, State.samplesFrom, hw]
  | setData v =>
    have h0 := h 0 (by simp [primOps])
    have : s.ran [.setData v] = s.answered.driveData v := by
      ext1 <;> simp [State.ran, primGets, primOps, primEvents, clkAfter, dataAfter]
    simp [runPrims, lineSetData, lineAnswer_ok h0, this, primGets, State.samplesFrom, hw]
  | get =>
    have h0 := h 0 (by simp [primOps])
    have ha : s.answered.sampleAt 0 = s.sampleAt 0 := by simp [State.sampleAt]
    have : s.ran [.get] = s.answered.sampled := by
      ext1 <;> simp [State.ran, primGets, primOps, primEvents, clkAfter, dataAfter, ha]
    simp [runPrims, lineGet, lineAnswer_ok h0, this, primGets, State.samplesFrom, ha]

theorem ran_cons (s : State) (p : Prim) (ps : List Prim) : (s.ran [p]).ran ps = s.ran (p :: ps) := by
  have he := primEvents_drop (s := s) (t := s.ran [p]) (m := primGets [p]) rfl rfl 0 ps
  cases p <;> ext1 <;>
    simp [State.ran, primGets, primOps, primEvents, clkAfter, dataAfter, Nat.add_comm] at he ⊢ <;>
    first | exact he | omega

/-- A run all of whose primitives complete: its samples, and the state it leaves. -/
theorem runPrims_done (ps : List Prim) : ∀ s : State, s.linesComplete (primOps ps).length →
    runPrims ps s = .done (s.samplesFrom 0 (primGets ps)) (s.ran ps) := by
  induction ps with
  | nil =>
    intro s _
    simp [runPrims, State.ran, primGets, primOps, primEvents, clkAfter, dataAfter, State.samplesFrom]
  | cons p ps ih =>
    intro s h
    have hl : (primOps (p :: ps)).length = (primOps [p]).length + (primOps ps).length := by
      rw [← List.length_append, ← primOps_append]; rfl
    rw [hl] at h
    have hS := samplesFrom_drop (s := s) (t := s.ran [p]) (m := primGets [p]) rfl rfl 0 (primGets ps)
    rw [runPrims_cons_ok p ps (linesComplete_mono h (by omega)), ih _ (linesComplete_drop h rfl), LineRes.bind_done,
      ran_cons, hS]
    cases p with
    | get =>
      rw [show primGets (Prim.get :: ps) = primGets ps + 1 from rfl, samplesFrom_succ]
      simp [primGets, State.samplesFrom]
    | _ => simp [primGets, State.samplesFrom]

/-- The part of a run before its `k`-th line primitive. -/
def beforePrim : Nat → List Prim → List Prim
  | _, [] => []
  | k, .wait t :: ps => .wait t :: beforePrim k ps
  | 0, _ :: _ => []
  | k + 1, p :: ps => p :: beforePrim k ps

/-- A run whose `k`-th line primitive is the first that does not complete stops there, everything before it done (R126). -/
theorem runPrims_stop (ps : List Prim) : ∀ (s : State) (k : Nat), s.linesComplete k → s.outcomeAt k ≠ .ok →
    (hk : k < (primOps ps).length) →
    runPrims ps s = .stop (stopOf (s.outcomeAt k) (primOps ps)[k]) (s.ran (beforePrim k ps)).answered := by
  induction ps with
  | nil => intro s k _ _ hk; simp [primOps] at hk
  | cons p ps ih =>
    intro s k hc hn hk
    have hr : ∀ s : State, s.ran [] = s := fun s => by
      ext1 <;> simp [State.ran, primGets, primOps, primEvents, clkAfter, dataAfter]
    cases p with
    | wait t =>
      have h0 : s.linesComplete (primOps [.wait t]).length := fun k hk => by simp [primOps] at hk
      have hd : (s.ran [.wait t]).lineI = s.lineI.drop 0 := rfl
      rw [runPrims_cons_ok _ _ h0, ih (s.ran [.wait t]) k (linesComplete_drop (m := 0) (by simpa using hc) hd)
        (by rw [outcomeAt_drop hd]; simpa using hn) hk]
      simp [beforePrim, ran_cons, outcomeAt_drop hd, primOps]
      rfl
    | setClk v =>
      cases k with
      | zero => simp [runPrims, lineSetClk, lineAnswer_stop hn, primOps, beforePrim, hr]
      | succ k =>
        have hd : (s.ran [.setClk v]).lineI = s.lineI.drop 1 := rfl
        have h0 : s.linesComplete (primOps [Prim.setClk v]).length := linesComplete_mono hc (by simp [primOps])
        rw [runPrims_cons_ok _ _ h0, ih (s.ran [.setClk v]) k (linesComplete_drop (by rwa [Nat.add_comm]) hd)
          (by rw [outcomeAt_drop hd, Nat.add_comm]; exact hn) (by simpa [primOps] using hk)]
        simp [beforePrim, ran_cons, outcomeAt_drop hd, primOps, Nat.add_comm]
    | setData v =>
      cases k with
      | zero => simp [runPrims, lineSetData, lineAnswer_stop hn, primOps, beforePrim, hr]
      | succ k =>
        have hd : (s.ran [.setData v]).lineI = s.lineI.drop 1 := rfl
        have h0 : s.linesComplete (primOps [Prim.setData v]).length := linesComplete_mono hc (by simp [primOps])
        rw [runPrims_cons_ok _ _ h0, ih (s.ran [.setData v]) k (linesComplete_drop (by rwa [Nat.add_comm]) hd)
          (by rw [outcomeAt_drop hd, Nat.add_comm]; exact hn) (by simpa [primOps] using hk)]
        simp [beforePrim, ran_cons, outcomeAt_drop hd, primOps, Nat.add_comm]
    | get =>
      cases k with
      | zero => simp [runPrims, lineGet, lineAnswer_stop hn, primOps, beforePrim, hr]
      | succ k =>
        have hd : (s.ran [.get]).lineI = s.lineI.drop 1 := rfl
        have h0 : s.linesComplete (primOps [Prim.get]).length := linesComplete_mono hc (by simp [primOps])
        rw [runPrims_cons_ok _ _ h0, ih (s.ran [.get]) k (linesComplete_drop (by rwa [Nat.add_comm]) hd)
          (by rw [outcomeAt_drop hd, Nat.add_comm]; exact hn) (by simpa [primOps] using hk)]
        simp [beforePrim, ran_cons, outcomeAt_drop hd, primOps, Nat.add_comm]

/-- Either the next `n` line primitives complete, or there is a first among them that does not. -/
theorem linesComplete_or (s : State) (n : Nat) :
    s.linesComplete n ∨ ∃ k, k < n ∧ s.linesComplete k ∧ s.outcomeAt k ≠ .ok := by
  induction n with
  | zero => exact .inl fun k hk => by omega
  | succ n ih =>
    obtain h | ⟨k, hk, h⟩ := ih
    · by_cases hn : s.outcomeAt n = .ok
      · refine .inl fun k hk => ?_
        obtain rfl | hk := Nat.eq_or_lt_of_le (Nat.le_of_lt_succ hk)
        · exact hn
        · exact h k hk
      · exact .inr ⟨n, by omega, h, hn⟩
    · exact .inr ⟨k, by omega, h⟩

end Sys2Proof.Machine
end

