-- ==== Sys2Proof/Laws/Exchange.lean ====
section
/-!
SUPPORT. What RECV_BIT, XCHG_BYTE and XCHG_FRAME do: complete (R83 to R88), or end at the first line primitive that does not
complete (R126).
-/

namespace Sys2Proof.Machine

/-! ## `exchanged` composes -/

@[simp] theorem exchanged_exchanged (s : State) (m n m' n' : Nat) (es es' : List Entry) (ev ev' : List Event) :
    (s.exchanged m n es ev).exchanged m' n' es' ev' = s.exchanged (m + m') (n + n') (es ++ es') (ev ++ ev') := by
  ext1 <;> simp [Nat.add_assoc]

@[simp] theorem exchanged_delay (s : State) (m n : Nat) (es : List Entry) (ev : List Event) (t : Delay) :
    (s.exchanged m n es ev).delay t = s.exchanged m n es (ev ++ [.wait t]) := by
  ext1 <;> simp

@[simp] theorem exchanged_sampleAt (s : State) (m n : Nat) (es : List Entry) (ev : List Event) (k : Nat) :
    (s.exchanged m n es ev).sampleAt k = s.sampleAt (m + k) := sampleAt_drop rfl rfl k

@[simp] theorem exchanged_samplesFrom (s : State) (m n : Nat) (es : List Entry) (ev : List Event) (k j : Nat) :
    (s.exchanged m n es ev).samplesFrom k j = s.samplesFrom (m + k) j := samplesFrom_drop rfl rfl k j

@[simp] theorem exchanged_rcvFrom (s : State) (m n : Nat) (es : List Entry) (ev : List Event) (k : Nat) :
    (s.exchanged m n es ev).rcvFrom k = s.rcvFrom (m + k) := rcvFrom_drop rfl rfl k

@[simp] theorem exchanged_outcomeAt (s : State) (m n : Nat) (es : List Entry) (ev : List Event) (k : Nat) :
    (s.exchanged m n es ev).outcomeAt k = s.outcomeAt (n + k) := outcomeAt_drop rfl k

theorem exchanged_linesComplete {s : State} {m n k : Nat} {es : List Entry} {ev : List Event}
    (h : s.linesComplete (n + k)) : (s.exchanged m n es ev).linesComplete k := linesComplete_drop h rfl

/-! ## Complete exchanges -/

/-- RECV_BIT complete (R83, R88). -/
theorem recvBit_done {s : State} (h : s.linesComplete 5) :
    recvBit s = .done (s.sampleAt 0) (s.exchanged 1 5 [.bit true (s.sampleAt 0)] (bitEvents (s.sampleAt 0))) := by
  rw [recvBit, runPrims_done recvBitPrims s h]
  have he : (s.ran recvBitPrims).recAppend (.bit true (s.sampleAt 0)) =
      s.exchanged 1 5 [.bit true (s.sampleAt 0)] (bitEvents (s.sampleAt 0)) := by
    ext1 <;> rfl
  rw [← he]
  rfl

/-- XCHG_BYTE complete (R84, R88). -/
theorem xchgByte_done {s : State} (b : Byte) (h : s.linesComplete 40) :
    xchgByte b s =
      .done (s.rcvFrom 0) (s.exchanged 8 40 [.byte b (s.rcvFrom 0)] (byteEvents b (s.samplesFrom 0 8))) := by
  rw [xchgByte, runPrims_done (xchgBytePrims b) s h]
  have he : (s.ran (xchgBytePrims b)).recAppend (.byte b (s.rcvFrom 0)) =
      s.exchanged 8 40 [.byte b (s.rcvFrom 0)] (byteEvents b (s.samplesFrom 0 8)) := by
    ext1 <;> rfl
  rw [← he]
  rfl

@[simp] theorem restEntries_length (s : State) (k : Nat) (bs : List Byte) :
    (restEntries s k bs).length = bs.length := by
  induction bs generalizing k with
  | nil => rfl
  | cons b bs ih => simp [restEntries, ih]

/-- A complete frame appends one entry more than it has bytes (R87). -/
theorem frameEntries_length (s : State) (f : List Byte) (h : f ≠ []) : (frameEntries s f).length = f.length + 1 := by
  cases f with
  | nil => contradiction
  | cons b bs => simp [frameEntries]

/-- The byte slots after the turnaround, complete (R86). -/
theorem xchgRest_done (bs : List Byte) : ∀ (s : State) (m n : Nat) (es : List Entry) (ev : List Event),
    s.linesComplete (n + 40 * bs.length) →
    xchgRest bs (s.exchanged m n es ev) = .done () (s.exchanged (m + 8 * bs.length) (n + 40 * bs.length)
      (es ++ restEntries s m bs) (ev ++ restEvents s m bs)) := by
  induction bs with
  | nil => intro s m n es ev _; simp [xchgRest, restEntries, restEvents]
  | cons b bs ih =>
    intro s m n es ev h
    simp only [List.length_cons] at h
    rw [xchgRest, xchgByte_done b (exchanged_linesComplete (linesComplete_mono h (by omega)))]
    simp only [LineRes.bind_done, exchanged_exchanged, exchanged_delay, exchanged_rcvFrom, exchanged_samplesFrom,
      Nat.add_zero]
    rw [ih s (m + 8) (n + 40) _ _ (by rwa [show n + 40 + 40 * bs.length = n + 40 * (bs.length + 1) by omega])]
    simp only [restEntries, restEvents, List.length_cons, List.append_assoc, List.cons_append, List.nil_append]
    congr 2 <;> omega

/-- XCHG_FRAME complete (R86 to R88). -/
theorem xchgFrame_done {s : State} {f : List Byte} (hf : f ≠ []) (h : s.linesComplete (40 * f.length + 5)) :
    xchgFrame f s = .done () (s.afterFrame f) := by
  cases f with
  | nil => contradiction
  | cons b bs =>
    simp only [List.length_cons] at h
    rw [xchgFrame, xchgByte_done b (linesComplete_mono h (by omega))]
    simp only [LineRes.bind_done, exchanged_delay]
    rw [recvBit_done (exchanged_linesComplete (linesComplete_mono h (by omega)))]
    simp only [LineRes.bind_done, exchanged_delay, exchanged_exchanged, exchanged_sampleAt]
    rw [xchgRest_done bs s _ _ _ _ (by rwa [show 40 + 5 + 40 * bs.length = 40 * (bs.length + 1) + 5 by omega])]
    simp only [State.afterFrame, frameEntries, frameEvents, List.length_cons, List.append_assoc, List.cons_append,
      List.nil_append]
    congr 2 <;> omega

/-! ## Exchanges that end part-way -/

/-- `u` is `s` after the entries `es`, the events `ev` and `n` line primitives of an exchange that ended part-way. -/
def Cut (s u : State) (es : List Entry) (ev : List Event) (n : Nat) : Prop :=
  ∃ m, u = { s with
    clkO := u.clkO, dataO := u.dataO, record := s.record ++ es, trace := s.trace ++ ev, dataI := s.dataI.drop m,
    sampleCtr := s.sampleCtr + m, lineI := s.lineI.drop n }

theorem Cut.of_exchanged {s u : State} {m n j : Nat} {es es' : List Entry} {ev ev' : List Event}
    (h : Cut (s.exchanged m n es ev) u es' ev' j) : Cut s u (es ++ es') (ev ++ ev') (n + j) := by
  obtain ⟨i, h⟩ := h
  refine ⟨m + i, ?_⟩
  rw [h]
  ext1 <;> simp [Nat.add_assoc]

/-- How many line events a piece of trace has. -/
def lineCount : List Event → Nat
  | [] => 0
  | e :: es => if e.isLine then lineCount es + 1 else lineCount es

@[simp] theorem beforeLine_wait (k : Nat) (t : Delay) (es : List Event) :
    beforeLine k (.wait t :: es) = .wait t :: beforeLine k es := by
  cases k <;> simp [beforeLine, Event.isLine]

theorem beforeLine_append (a b : List Event) : ∀ k, beforeLine k (a ++ b) =
    if k < lineCount a then beforeLine k a else a ++ beforeLine (k - lineCount a) b := by
  induction a with
  | nil => intro k; simp [lineCount]
  | cons e a ih =>
    intro k
    cases he : e.isLine <;> cases k <;> simp only [List.cons_append, beforeLine, lineCount, he, ih] <;>
      simp <;> split <;> simp_all

theorem primEvents_beforePrim (s : State) (ps : List Prim) : ∀ k j,
    primEvents s j (beforePrim k ps) = beforeLine k (primEvents s j ps) := by
  induction ps with
  | nil => intro k j; cases k <;> rfl
  | cons p ps ih =>
    intro k j
    cases p <;> cases k <;> simp [beforePrim, primEvents, beforeLine, Event.isLine, ih]

theorem Cut.of_ran (s : State) (ps : List Prim) (k : Nat) (hk : k < (primOps ps).length) :
    Cut s (s.ran (beforePrim k ps)).answered [] (beforeLine k (primEvents s 0 ps)) (k + 1) := by
  have hl : ∀ ps : List Prim, ∀ k, k < (primOps ps).length → (primOps (beforePrim k ps)).length = k := by
    intro ps
    induction ps with
    | nil => intro k hk; simp [primOps] at hk
    | cons p ps ih =>
      intro k hk
      cases p with
      | wait t => exact ih k hk
      | _ =>
        cases k with
        | zero => rfl
        | succ k => simp only [primOps, List.length_cons, Nat.add_lt_add_iff_right] at hk; simp [beforePrim, primOps, ih k hk]
  refine ⟨primGets (beforePrim k ps), ?_⟩
  ext1 <;> simp [State.ran, primEvents_beforePrim, hl ps k hk]

/-- RECV_BIT ended at its `k`-th line primitive: no entry (R36, R126). -/
theorem recvBit_stop {s : State} {k : Nat} (hk : k < 5) (hc : s.linesComplete k) (hn : s.outcomeAt k ≠ .ok) :
    ∃ u, recvBit s = .stop (stopOf (s.outcomeAt k) (bitSlotOp k)) u ∧
      Cut s u [] (beforeLine k (bitEvents (s.sampleAt 0))) (k + 1) := by
  have ho : ∀ k : Fin 5, (primOps recvBitPrims)[k.val]'(k.isLt) = bitSlotOp k := by decide
  refine ⟨_, ?_, Cut.of_ran s recvBitPrims k hk⟩
  rw [recvBit, runPrims_stop recvBitPrims s k hc hn hk, LineRes.bind_stop, ho ⟨k, hk⟩]

theorem xchgBytePrims_op (b : Byte) (k : Nat) (hk : k < (primOps (xchgBytePrims b)).length) :
    (primOps (xchgBytePrims b))[k] = periodOp (k % 5) := by
  have ho : primOps (xchgBytePrims b) = (List.range 40).map fun k => periodOp (k % 5) := by decide +revert
  simp [ho]

/-- XCHG_BYTE ended at its `k`-th line primitive: no entry (R36, R126). -/
theorem xchgByte_stop {s : State} (b : Byte) {k : Nat} (hk : k < 40) (hc : s.linesComplete k)
    (hn : s.outcomeAt k ≠ .ok) :
    ∃ u, xchgByte b s = .stop (stopOf (s.outcomeAt k) (periodOp (k % 5))) u ∧
      Cut s u [] (beforeLine k (byteEvents b (s.samplesFrom 0 8))) (k + 1) := by
  refine ⟨_, ?_, Cut.of_ran s (xchgBytePrims b) k hk⟩
  have hk : k < (primOps (xchgBytePrims b)).length := hk
  rw [xchgByte, runPrims_stop (xchgBytePrims b) s k hc hn hk, LineRes.bind_stop, xchgBytePrims_op]

theorem lineCount_byteEvents (b : Byte) (s : State) (k : Nat) : lineCount (byteEvents b (s.samplesFrom k 8)) = 40 := rfl

/-- The byte slots after the turnaround, ended at their `k`-th line primitive (R126). -/
theorem xchgRest_stop (bs : List Byte) : ∀ (s : State) (m n k : Nat) (es : List Entry) (ev : List Event),
    k < 40 * bs.length → s.linesComplete (n + k) → s.outcomeAt (n + k) ≠ .ok →
    ∃ u, xchgRest bs (s.exchanged m n es ev) = .stop (stopOf (s.outcomeAt (n + k)) (periodOp (k % 5))) u ∧
      Cut s u (es ++ (restEntries s m bs).take (k / 40)) (ev ++ beforeLine k (restEvents s m bs)) (n + k + 1) := by
  induction bs with
  | nil => intro s m n k es ev hk; simp at hk
  | cons b bs ih =>
    intro s m n k es ev hk hc hn
    rw [List.length_cons] at hk
    rw [xchgRest, restEntries, restEvents, List.append_assoc, beforeLine_append, lineCount_byteEvents]
    by_cases h : k < 40
    · obtain ⟨u, hu, hcut⟩ := xchgByte_stop (s := s.exchanged m n es ev) b h
        (exchanged_linesComplete hc) (by simpa using hn)
      refine ⟨u, ?_, ?_⟩
      · rw [hu, LineRes.bind_stop, exchanged_outcomeAt]
      · have := hcut.of_exchanged
        simpa [h, Nat.div_eq_of_lt h, ← Nat.add_assoc] using this
    · obtain ⟨j, rfl⟩ : ∃ j, k = 40 + j := ⟨k - 40, by omega⟩
      rw [xchgByte_done b (exchanged_linesComplete (linesComplete_mono hc (by omega)))]
      simp only [LineRes.bind_done, exchanged_exchanged, exchanged_delay, exchanged_rcvFrom, exchanged_samplesFrom,
        Nat.add_zero]
      obtain ⟨u, hu, hcut⟩ := ih s (m + 8) (n + 40) j (es ++ [.byte b (s.rcvFrom m)])
        (ev ++ (byteEvents b (s.samplesFrom m 8) ++ [.wait .byteGap])) (by omega)
        (by rwa [Nat.add_assoc]) (by rwa [Nat.add_assoc])
      refine ⟨u, ?_, ?_⟩
      · rw [show (40 + j) % 5 = j % 5 by omega, ← Nat.add_assoc, ← hu]
        simp
      · rw [show (40 + j) / 40 = j / 40 + 1 by omega, ← Nat.add_assoc]
        simpa using hcut

/-- XCHG_FRAME ended at its `k`-th line primitive: the entries of the exchanges complete before it, the events before it, and
nothing else (R126). -/
theorem xchgFrame_stop {s : State} {f : List Byte} {k : Nat} (hf : f ≠ []) (hk : k < 40 * f.length + 5)
    (hc : s.linesComplete k) (hn : s.outcomeAt k ≠ .ok) :
    ∃ u, xchgFrame f s = .stop (stopOf (s.outcomeAt k) (frameOpAt k)) u ∧
      Cut s u ((frameEntries s f).take (entriesBefore k)) (beforeLine k (frameEvents s f)) (k + 1) := by
  cases f with
  | nil => contradiction
  | cons b bs =>
    rw [List.length_cons] at hk
    simp only [xchgFrame, frameEntries, frameEvents, List.append_assoc]
    rw [beforeLine_append, lineCount_byteEvents]
    by_cases h : k < 40
    · obtain ⟨u, hu, hcut⟩ := xchgByte_stop b h hc hn
      exact ⟨u, by rw [hu, LineRes.bind_stop]; simp [frameOpAt, h], by simpa [entriesBefore, h] using hcut⟩
    · obtain ⟨j, rfl⟩ : ∃ j, k = 40 + j := ⟨k - 40, by omega⟩
      rw [xchgByte_done b (linesComplete_mono hc (by omega))]
      simp only [LineRes.bind_done, exchanged_delay]
      have hb : lineCount (bitEvents (s.sampleAt 8)) = 5 := rfl
      by_cases h5 : j < 5
      · obtain ⟨u, hu, hcut⟩ := recvBit_stop (s := s.exchanged 8 40 [.byte b (s.rcvFrom 0)]
          (byteEvents b (s.samplesFrom 0 8) ++ [.wait .byteGap])) h5
          (exchanged_linesComplete hc) (by simpa using hn)
        refine ⟨u, ?_, ?_⟩
        · rw [hu, LineRes.bind_stop]; simp [frameOpAt, show 40 + j < 45 by omega]
        · have := hcut.of_exchanged
          simp only [exchanged_sampleAt] at this
          simpa [beforeLine_append, hb, h5, entriesBefore, show 40 + j < 45 by omega, Nat.add_assoc] using this
      · obtain ⟨i, rfl⟩ : ∃ i, j = 5 + i := ⟨j - 5, by omega⟩
        rw [recvBit_done (exchanged_linesComplete (linesComplete_mono hc (by omega)))]
        simp only [LineRes.bind_done, exchanged_delay, exchanged_exchanged, exchanged_sampleAt]
        obtain ⟨u, hu, hcut⟩ := xchgRest_stop bs s (8 + 1) (40 + 5) i ([.byte b (s.rcvFrom 0)] ++ [.bit true (s.sampleAt 8)])
          (byteEvents b (s.samplesFrom 0 8) ++ [.wait .byteGap] ++ bitEvents (s.sampleAt 8) ++ [.wait .byteGap])
          (by omega) (by rwa [Nat.add_assoc]) (by rwa [Nat.add_assoc])
        refine ⟨u, ?_, ?_⟩
        · rw [← Nat.add_assoc]
          simp only [List.append_assoc] at hu ⊢
          rw [hu]
          simp [frameOpAt, show ¬ 40 + 5 + i < 45 by omega, show ¬ 40 + 5 + i < 40 by omega]
        · have he : entriesBefore (40 + (5 + i)) = i / 40 + 2 := by
            rw [entriesBefore, if_neg (by omega), if_neg (by omega)]
            omega
          rw [he, if_neg (by omega), show 40 + (5 + i) - 40 = 5 + i by omega, ← Nat.add_assoc]
          simpa [beforeLine_append, hb] using hcut

end Sys2Proof.Machine
end

