-- ==== Sys2Proof/Laws/PerInstr.lean ====
section
/-!
SUPPORT. Per operation: what the decoder yields is well-formed (`Instr.wf`), whatever word it came from.
-/

namespace Sys2Proof.Laws.DecodedWf

/-- Where the decoder yields `i`, its operands are those the spec gives the operation a meaning for. -/
def Statement (i : Instr) : Prop := ∀ (p : KftParams) (w : OpWord), decode p w = .ok i → i.wf = true

/-- An operation decoded from a SEQ value is well-formed. -/
theorem of_seq {w : BitVec 6} {i : Instr} (h : decodeSeq w = .ok i) : i.wf = true := by
  unfold decodeSeq at h
  split at h
  · cases h
  · split at h
    · cases h; rfl
    · unfold decodeCycle at h
      split at h
      · cases h; split <;> rfl
      · cases h; rfl
      · cases h; rfl
    · cases h
    · cases h

/-- An operation decoded from a wire frame is well-formed. -/
theorem of_frame {p : KftParams} {bs : List Byte} {i : Instr} (h : decodeFrame p bs = .ok i) : i.wf = true := by
  unfold decodeFrame at h
  split at h <;> (try dsimp only at h) <;> (try split_ifs at h) <;> cases h <;> first | rfl | simp_all [Instr.wf]

/-- An operation decoded from slots is well-formed. -/
theorem of_slots {ss : List Slot} {i : Instr} (h : decodeSlots ss = .ok i) : i.wf = true := by
  unfold decodeSlots at h
  split at h
  · cases h; rfl
  · cases h; rfl
  · split at h
    · split_ifs at h
      cases h
      simpa [Instr.wf]
    · cases h
  · cases h

/-- An operation decoded from any word is well-formed. -/
theorem of_decode {p : KftParams} {w : OpWord} {i : Instr} (h : decode p w = .ok i) : i.wf = true := by
  cases w with
  | seq w => exact of_seq h
  | frame bs => exact of_frame h
  | slots ss => exact of_slots h
  | called j =>
    simp only [decode] at h
    split_ifs at h
    cases h
    assumption

theorem lineSetClk (v : Level) : Statement (.lineSetClk v) := fun _ _ _ => rfl

theorem lineSetData (v : Level) : Statement (.lineSetData v) := fun _ _ _ => rfl

theorem lineGet : Statement .lineGet := fun _ _ _ => rfl

theorem recvBit : Statement .recvBit := fun _ _ _ => rfl

theorem xchgByte (b : Byte) : Statement (.xchgByte b) := fun _ _ _ => rfl

theorem xchgFrame (f : List Byte) : Statement (.xchgFrame f) := fun _ _ h => of_decode h

theorem cksum (f : List Byte) : Statement (.cksum f) := fun _ _ h => of_decode h

theorem buildPart (st : Byte) : Statement (.buildPart st) := fun _ _ _ => rfl

theorem buildZone (st : Byte) : Statement (.buildZone st) := fun _ _ _ => rfl

theorem buildLights (st : Byte) : Statement (.buildLights st) := fun _ _ _ => rfl

theorem buildDt (t : DateTime) : Statement (.buildDt t) := fun _ _ h => of_decode h

theorem buildQuery : Statement .buildQuery := fun _ _ _ => rfl

theorem encStatus : Statement .encStatus := fun _ _ _ => rfl

theorem decResp (r : Byte) : Statement (.decResp r) := fun _ _ _ => rfl

theorem poll : Statement .poll := fun _ _ _ => rfl

theorem stepPart : Statement .stepPart := fun _ _ _ => rfl

theorem stepZone : Statement .stepZone := fun _ _ _ => rfl

theorem stepLights : Statement .stepLights := fun _ _ _ => rfl

theorem stepDt : Statement .stepDt := fun _ _ _ => rfl

theorem query (p : Step) : Statement (.query p) := fun _ _ _ => rfl

theorem post (p : Step) : Statement (.post p) := fun _ _ _ => rfl

theorem halt (c : HaltCause) : Statement (.halt c) := fun _ _ _ => rfl

theorem fault (t : FrameType) (op : LineOp) : Statement (.fault t op) := fun _ _ _ => rfl

end Sys2Proof.Laws.DecodedWf
end

