-- ==== Sys2Proof/Laws/Step.lean ====
section
/-!
SUPPORT. What a step can do, and how an operation over the lines ends: the lemmas later proofs split on.
-/

namespace Sys2Proof.Machine

/-! ## How an operation over the lines ends -/

@[simp] theorem conclude_done {α : Type} (t : Option FrameType) (a : α) (s : State) (k : α → State → Result) :
    conclude t (.done a s) k = k a s := rfl

@[simp] theorem conclude_reset {α : Type} (t : Option FrameType) (s : State) (k : α → State → Result) :
    conclude t (.stop .reset s : LineRes α) k = .next s.applyReset := rfl

@[simp] theorem conclude_fault {α : Type} (t : FrameType) (op : LineOp) (s : State) (k : α → State → Result) :
    conclude (some t) (.stop (.lineFault op) s : LineRes α) k = .next (s.takeFault t op) := rfl

@[simp] theorem conclude_outside {α : Type} (op : LineOp) (s : State) (k : α → State → Result) :
    conclude none (.stop (.lineFault op) s : LineRes α) k = .fault .lineFaultOutsideExchange := rfl

/-- A frame exchange completes, or it ends at the first line primitive that does not (R126). -/
theorem xchgFrame_cases (s : State) {f : List Byte} (hf : f ≠ []) :
    xchgFrame f s = .done () (s.afterFrame f) ∨
    ∃ k u, k < 40 * f.length + 5 ∧ s.linesComplete k ∧ s.outcomeAt k ≠ .ok ∧
      xchgFrame f s = .stop (stopOf (s.outcomeAt k) (frameOpAt k)) u ∧
      Cut s u ((frameEntries s f).take (entriesBefore k)) (beforeLine k (frameEvents s f)) (k + 1) := by
  obtain h | ⟨k, hk, hc, hn⟩ := linesComplete_or s (40 * f.length + 5)
  · exact .inl (xchgFrame_done hf h)
  · obtain ⟨u, hu, hcut⟩ := xchgFrame_stop hf hk hc hn
    exact .inr ⟨k, u, hk, hc, hn, hu, hcut⟩

/-- A bit exchange, the same. -/
theorem recvBit_cases (s : State) :
    recvBit s = .done (s.sampleAt 0) (s.exchanged 1 5 [.bit true (s.sampleAt 0)] (bitEvents (s.sampleAt 0))) ∨
    ∃ k u, k < 5 ∧ s.linesComplete k ∧ s.outcomeAt k ≠ .ok ∧
      recvBit s = .stop (stopOf (s.outcomeAt k) (bitSlotOp k)) u ∧
      Cut s u [] (beforeLine k (bitEvents (s.sampleAt 0))) (k + 1) := by
  obtain h | ⟨k, hk, hc, hn⟩ := linesComplete_or s 5
  · exact .inl (recvBit_done h)
  · obtain ⟨u, hu, hcut⟩ := recvBit_stop hk hc hn
    exact .inr ⟨k, u, hk, hc, hn, hu, hcut⟩

/-- A byte exchange, the same. -/
theorem xchgByte_cases (s : State) (b : Byte) :
    xchgByte b s =
      .done (s.rcvFrom 0) (s.exchanged 8 40 [.byte b (s.rcvFrom 0)] (byteEvents b (s.samplesFrom 0 8))) ∨
    ∃ k u, k < 40 ∧ s.linesComplete k ∧ s.outcomeAt k ≠ .ok ∧
      xchgByte b s = .stop (stopOf (s.outcomeAt k) (periodOp (k % 5))) u ∧
      Cut s u [] (beforeLine k (byteEvents b (s.samplesFrom 0 8))) (k + 1) := by
  obtain h | ⟨k, hk, hc, hn⟩ := linesComplete_or s 40
  · exact .inl (xchgByte_done b h)
  · obtain ⟨u, hu, hcut⟩ := xchgByte_stop b hk hc hn
    exact .inr ⟨k, u, hk, hc, hn, hu, hcut⟩

/-! ## What an operation over the lines touches -/

/-- `u` is `s` but for both outputs, the inputs used up, and what was appended to the record and the trace. -/
def Touched (s u : State) : Prop :=
  ∃ es ev, u = { s with
    clkO := u.clkO, dataO := u.dataO, record := s.record ++ es, trace := s.trace ++ ev, dataI := u.dataI,
    sampleCtr := u.sampleCtr, lineI := u.lineI }

theorem Touched.of_cut {s u : State} {es : List Entry} {ev : List Event} {n : Nat} (h : Cut s u es ev n) :
    Touched s u := by
  obtain ⟨m, h⟩ := h
  exact ⟨es, ev, by rw [h]⟩

theorem Touched.exchanged (s : State) (m n : Nat) (es : List Entry) (ev : List Event) :
    Touched s (s.exchanged m n es ev) := ⟨es, ev, rfl⟩

/-- The state an operation over the lines ends in. -/
def LineRes.state {α : Type} : LineRes α → State
  | .done _ s => s
  | .stop _ s => s

theorem touched_answered (s : State) : Touched s s.answered := ⟨[], [], by simp [State.answered]⟩

theorem lineSetClk_touched (v : Level) (s : State) : Touched s (lineSetClk v s).state := by
  unfold lineSetClk lineAnswer
  split <;> first | exact touched_answered s | exact ⟨[], [.clk v], by simp [State.answered, State.driveClk, LineRes.state]⟩

theorem lineSetData_touched (v : Level) (s : State) : Touched s (lineSetData v s).state := by
  unfold lineSetData lineAnswer
  split <;> first | exact touched_answered s | exact ⟨[], [.data v], by simp [State.answered, State.driveData, LineRes.state]⟩

theorem lineGet_touched (s : State) : Touched s (lineGet s).state := by
  unfold lineGet lineAnswer
  split <;> first
    | exact touched_answered s
    | exact ⟨[], [.sample (s.answered.sampleAt 0)], by simp [State.answered, State.sampled, LineRes.state]⟩

theorem recvBit_touched (s : State) : Touched s (recvBit s).state := by
  obtain h | ⟨k, u, -, -, -, h, hcut⟩ := recvBit_cases s
  · rw [h]; exact .exchanged ..
  · rw [h]; exact .of_cut hcut

theorem xchgByte_touched (b : Byte) (s : State) : Touched s (xchgByte b s).state := by
  obtain h | ⟨k, u, -, -, -, h, hcut⟩ := xchgByte_cases s b
  · rw [h]; exact .exchanged ..
  · rw [h]; exact .of_cut hcut

theorem xchgFrame_touched (f : List Byte) (s : State) : Touched s (xchgFrame f s).state := by
  by_cases hf : f = []
  · subst hf; exact ⟨[], [], by simp [xchgFrame, LineRes.state]⟩
  · obtain h | ⟨k, u, -, -, -, h, hcut⟩ := xchgFrame_cases s hf
    · rw [h]; exact .exchanged ..
    · rw [h]; exact .of_cut hcut

/-- A next state at the end of an operation over the lines: its continuation's, fault entry, or reset. -/
theorem conclude_next {α : Type} {t : Option FrameType} {r : LineRes α} {k : α → State → Result} {u : State}
    (h : conclude t r k = .next u) :
    (∃ a, r = .done a r.state ∧ k a r.state = .next u) ∨ (∃ f op, t = some f ∧ u = r.state.takeFault f op) ∨
    (∃ v, r = .stop .reset v) ∧ u = r.state.applyReset := by
  unfold conclude at h
  split at h
  · exact .inl ⟨_, rfl, h⟩
  · cases h; exact .inr (.inr ⟨⟨_, rfl⟩, rfl⟩)
  · split at h
    · cases h; exact .inr (.inl ⟨_, _, rfl, rfl⟩)
    · cases h

/-! ## What an operation can do -/

theorem Touched.rfl {s : State} : Touched s s := ⟨[], [], by simp⟩

/-- Where an operation over the lines ends in reset, the environment asserts it at one of the coming primitives. -/
theorem stopOf_reset {o : LineOutcome} {op : LineOp} (h : stopOf o op = .reset) : o = .reset := by
  cases o <;> simp_all [stopOf]

theorem lineAnswer_reset {s v : State} {op : LineOp} (h : lineAnswer op s = .stop .reset v) :
    ∃ k, s.outcomeAt k = .reset := by
  refine ⟨0, ?_⟩
  by_cases ho : s.outcomeAt 0 = .ok
  · rw [lineAnswer_ok ho] at h; cases h
  · rw [lineAnswer_stop ho] at h; injection h with h; exact stopOf_reset h

theorem lineOp_reset {α : Type} {s v : State} {op : LineOp} {k : Unit → State → α × State}
    (h : (lineAnswer op s).bind (fun a s => .done (k a s).1 (k a s).2) = .stop .reset v) :
    ∃ k, s.outcomeAt k = .reset := by
  cases ha : lineAnswer op s with
  | done a u => rw [ha] at h; cases h
  | stop c u => rw [ha] at h; cases h; exact lineAnswer_reset ha

theorem xchgFrame_reset {f : List Byte} {s v : State} (h : xchgFrame f s = .stop .reset v) :
    ∃ k, s.outcomeAt k = .reset := by
  by_cases hf : f = []
  · subst hf; cases h
  · obtain hd | ⟨k, u, -, -, -, hu, -⟩ := xchgFrame_cases s hf
    · rw [hd] at h; cases h
    · rw [hu] at h; injection h with h; exact ⟨k, stopOf_reset h⟩

theorem recvBit_reset {s v : State} (h : recvBit s = .stop .reset v) : ∃ k, s.outcomeAt k = .reset := by
  obtain hd | ⟨k, u, -, -, -, hu, -⟩ := recvBit_cases s
  · rw [hd] at h; cases h
  · rw [hu] at h; injection h with h; exact ⟨k, stopOf_reset h⟩

theorem xchgByte_reset {b : Byte} {s v : State} (h : xchgByte b s = .stop .reset v) :
    ∃ k, s.outcomeAt k = .reset := by
  obtain hd | ⟨k, u, -, -, -, hu, -⟩ := xchgByte_cases s b
  · rw [hd] at h; cases h
  · rw [hu] at h; injection h with h; exact ⟨k, stopOf_reset h⟩

/-- `t` is what an operation over the lines, begun in `s`, can leave: `u` with a new SEQ, UNK and value, fault entry, or
reset. -/
def LinesLeave (s t : State) : Prop :=
  ∃ u, Touched s u ∧
    ((∃ q x r, t = { u with seq := q, unk := x, ret := r } ∧ (u.unk = true → x = true)) ∨
      (∃ f op, t = u.takeFault f op) ∨ ((∃ k, s.outcomeAt k = .reset) ∧ t = u.applyReset))

theorem conclude_leaves {α : Type} {ft : Option FrameType} {r : LineRes α} {k : α → State → Result} {s t : State}
    (h : conclude ft r k = .next t) (ht : Touched s r.state)
    (hr : ∀ v, r = .stop .reset v → ∃ k, s.outcomeAt k = .reset)
    (hk : ∀ a, k a r.state = .next t →
      ∃ q x w, t = { r.state with seq := q, unk := x, ret := w } ∧ (r.state.unk = true → x = true)) :
    LinesLeave s t := by
  obtain ⟨a, -, h⟩ | ⟨f, op, -, h⟩ | ⟨⟨v, hv⟩, h⟩ := conclude_next h
  · exact ⟨_, ht, .inl (hk a h)⟩
  · exact ⟨_, ht, .inr (.inl ⟨f, op, h⟩)⟩
  · exact ⟨_, ht, .inr (.inr ⟨hr v hv, h⟩)⟩

theorem sentinelTest_next {p : Step} {s t : State} (h : sentinelTest p (s.returns .nothing) = .next t) :
    ∃ q x w, t = { s with seq := q, unk := x, ret := w } ∧ (s.unk = true → x = true) := by
  unfold sentinelTest at h
  split at h
  · cases h
  · injection h with h
    subst h
    split
    · exact ⟨_, _, _, rfl, fun _ => rfl⟩
    · exact ⟨_, _, _, rfl, id⟩

/-- Everything an operation that answers a next state can do. -/
theorem exec_cases {i : Instr} {s t : State} (h : exec i s = .next t) :
    (∃ r, t = s.returns r) ∨ LinesLeave s t ∨ (i = .poll ∧ t = s.pollStep.returns .nothing) ∨
    (∃ p e, i = .post p ∧ s.record[s.par.respIdx]? = some e ∧ t = (s.postStep p e.rcv).returns .nothing) ∨
    ∃ c, i = .halt c ∧ t = (s.halt c).returns .nothing := by
  have plain : ∀ (u : State) (w : OpResult) (q : BitVec 6), (u.returns w).goto q = t →
      ∃ q x w, t = { u with seq := q, unk := x, ret := w } ∧ (u.unk = true → x = true) := by
    intro u w q h; subst h; exact ⟨q, u.unk, w, rfl, id⟩
  have value : ∀ (u : State) (w : OpResult), Host.Outcome.next (u.returns w) = (.next t : Result) →
      ∃ q x w, t = { u with seq := q, unk := x, ret := w } ∧ (u.unk = true → x = true) := by
    intro u w h; injection h with h; subst h; exact ⟨u.seq, u.unk, w, rfl, id⟩
  cases i with
  | lineSetClk v =>
    simp only [exec, execLineSetClk] at h
    exact .inr (.inl (conclude_leaves h (lineSetClk_touched v s) (fun _ h => lineOp_reset (k := fun _ s => ((), s.driveClk v)) h)
      fun _ h => value _ _ h))
  | lineSetData v =>
    simp only [exec, execLineSetData] at h
    exact .inr (.inl (conclude_leaves h (lineSetData_touched v s) (fun _ h => lineOp_reset (k := fun _ s => ((), s.driveData v)) h)
      fun _ h => value _ _ h))
  | lineGet =>
    simp only [exec, execLineGet] at h
    exact .inr (.inl (conclude_leaves h (lineGet_touched s) (fun _ h => lineOp_reset (k := fun _ s => (s.sampleAt 0, s.sampled)) h)
      fun _ h => value _ _ h))
  | recvBit =>
    simp only [exec, execRecvBit] at h
    exact .inr (.inl (conclude_leaves h (recvBit_touched s) (fun _ h => recvBit_reset h)
      fun _ h => value _ _ h))
  | xchgByte b =>
    simp only [exec, execXchgByte] at h
    exact .inr (.inl (conclude_leaves h (xchgByte_touched b s) (fun _ h => xchgByte_reset h)
      fun _ h => value _ _ h))
  | xchgFrame f =>
    simp only [exec, execXchgFrame] at h
    split at h
    · cases h
    · exact .inr (.inl (conclude_leaves h (xchgFrame_touched f s) (fun _ h => xchgFrame_reset h)
      fun _ h => value _ _ h))
  | cksum f =>
    simp only [exec, execCksum] at h
    split at h <;> cases h
    exact .inl ⟨_, rfl⟩
  | buildDt d =>
    simp only [exec, execBuildDt] at h
    split at h <;> cases h
    exact .inl ⟨_, rfl⟩
  | buildPart _ => cases h; exact .inl ⟨_, rfl⟩
  | buildZone _ => cases h; exact .inl ⟨_, rfl⟩
  | buildLights _ => cases h; exact .inl ⟨_, rfl⟩
  | buildQuery => cases h; exact .inl ⟨_, rfl⟩
  | encStatus => cases h; exact .inl ⟨_, rfl⟩
  | decResp _ => cases h; exact .inl ⟨_, rfl⟩
  | poll => cases h; exact .inr (.inr (.inl ⟨rfl, rfl⟩))
  | stepPart =>
    simp only [exec, execStepPart] at h
    exact .inr (.inl (conclude_leaves h (xchgFrame_touched _ s) (fun _ h => xchgFrame_reset h)
      fun _ h => sentinelTest_next h))
  | stepZone =>
    simp only [exec, execStepZone] at h
    exact .inr (.inl (conclude_leaves h (xchgFrame_touched _ s) (fun _ h => xchgFrame_reset h)
      fun _ h => sentinelTest_next h))
  | stepLights =>
    simp only [exec, execStepLights] at h
    exact .inr (.inl (conclude_leaves h (xchgFrame_touched _ s) (fun _ h => xchgFrame_reset h)
      fun _ h => plain _ _ _ (by injection h)))
  | stepDt =>
    simp only [exec, execStepDt] at h
    split at h
    · exact .inr (.inl (conclude_leaves h (xchgFrame_touched _ s) (fun _ h => xchgFrame_reset h)
      fun _ h => plain _ _ _ (by injection h)))
    · cases h
  | query p =>
    simp only [exec, execQuery] at h
    exact .inr (.inl (conclude_leaves h (xchgFrame_touched _ s) (fun _ h => xchgFrame_reset h)
      fun _ h => plain _ _ _ (by injection h)))
  | post p =>
    simp only [exec, execPost] at h
    split at h <;> cases h
    exact .inr (.inr (.inr (.inl ⟨p, _, rfl, ‹_›, rfl⟩)))
  | halt c => cases h; exact .inr (.inr (.inr (.inr ⟨c, rfl, rfl⟩)))
  | fault f op => cases h; exact .inr (.inl ⟨s, .rfl, .inr (.inl ⟨f, op, rfl⟩)⟩)

/-! ## What the environment's actions leave alone -/

/-- The fields no action of the environment writes. -/
theorem act_registers (s : State) (a : EnvAction) :
    (s.act a).par = s.par ∧ (s.act a).flags = s.flags ∧ (s.act a).seq = s.seq ∧ (s.act a).record = s.record ∧
    (s.act a).unk = s.unk ∧ (s.act a).termCause = s.termCause ∧ (s.act a).faultInfo = s.faultInfo ∧
    (s.act a).respOvf = s.respOvf ∧ (s.act a).pollT = s.pollT ∧ (s.act a).clkO = s.clkO ∧
    (s.act a).dataO = s.dataO ∧ (s.act a).diag = s.diag ∧ (s.act a).trace = s.trace ∧ (s.act a).call = s.call ∧
    (s.act a).ret = s.ret ∧ (s.act a).schedule = s.schedule ∧ (s.act a).sampleCtr = s.sampleCtr ∧
    (s.act a).freeCtr = s.freeCtr := by
  cases a <;> exact ⟨rfl, rfl, rfl, rfl, rfl, rfl, rfl, rfl, rfl, rfl, rfl, rfl, rfl, rfl, rfl, rfl, rfl, rfl⟩

/-- Labels only leave the response channel. -/
theorem act_resp_length (s : State) (a : EnvAction) : (s.act a).resp.length ≤ s.resp.length := by
  cases a <;> simp [State.act]

/-- What every action of the environment keeps, the arrival of a batch keeps. -/
theorem arrive_keeps {P : State → Prop} (hs : ∀ (s : State) (l : List (List EnvAction)), P s → P { s with schedule := l })
    (ha : ∀ (s : State) (a : EnvAction), P s → P (s.act a)) {s : State} (h : P s) : P s.arrive := by
  have hf : ∀ (as : List EnvAction) (s : State), P s → P (as.foldl State.act s) := by
    intro as
    induction as with
    | nil => intro s h; exact h
    | cons a as ih => intro s h; exact ih _ (ha s a h)
  unfold State.arrive
  split
  · exact h
  · exact hf _ _ (hs _ _ h)

/-- The registers, the record and the outputs as they were before a batch of actions. -/
theorem arrive_registers (s : State) :
    s.arrive.par = s.par ∧ s.arrive.flags = s.flags ∧ s.arrive.seq = s.seq ∧ s.arrive.record = s.record ∧
    s.arrive.unk = s.unk ∧ s.arrive.termCause = s.termCause ∧ s.arrive.faultInfo = s.faultInfo ∧
    s.arrive.respOvf = s.respOvf ∧ s.arrive.pollT = s.pollT ∧ s.arrive.clkO = s.clkO ∧ s.arrive.dataO = s.dataO ∧
    s.arrive.diag = s.diag ∧ s.arrive.trace = s.trace ∧ s.arrive.call = s.call := by
  refine arrive_keeps (P := fun t => t.par = s.par ∧ t.flags = s.flags ∧ t.seq = s.seq ∧ t.record = s.record ∧
    t.unk = s.unk ∧ t.termCause = s.termCause ∧ t.faultInfo = s.faultInfo ∧ t.respOvf = s.respOvf ∧
    t.pollT = s.pollT ∧ t.clkO = s.clkO ∧ t.dataO = s.dataO ∧ t.diag = s.diag ∧ t.trace = s.trace ∧ t.call = s.call)
    (fun _ _ h => h) (fun u a h => ?_) ⟨rfl, rfl, rfl, rfl, rfl, rfl, rfl, rfl, rfl, rfl, rfl, rfl, rfl, rfl⟩
  have := act_registers u a
  simp_all

theorem arrive_resp_length (s : State) : s.arrive.resp.length ≤ s.resp.length :=
  arrive_keeps (P := fun t => t.resp.length ≤ s.resp.length) (fun _ _ h => h)
    (fun t a h => Nat.le_trans (act_resp_length t a) h) (Nat.le_refl _)

/-- With nothing scheduled the environment does nothing. -/
theorem arrive_nil {s : State} (h : s.schedule = []) : s.arrive = s := by simp [State.arrive, h]

/-! ## Reserved encodings (R75) -/

theorem reservedCode_eq_none {s : State} :
    s.reservedCode = none ↔ s.seq.extractLsb' 4 2 ≠ 3#2 ∧ infoReserved s.afterFault s.faultInfo = false := by
  unfold State.reservedCode
  split
  · simp_all
  · split <;> simp_all

/-- A reserved SUB goes first. -/
theorem reservedCode_seq {s : State} (h : s.seq.extractLsb' 4 2 = 3#2) : s.reservedCode = some .reservedSeq := by
  simp [State.reservedCode, h]

/-- The codes of FAULT_INFO that are reserved (R30, R75). -/
theorem infoReserved_iff (b : Bool) (w : BitVec 10) : infoReserved b w = true ↔
    infoOp w = 3#2 ∨ infoFrame w = 6#3 ∨ infoFrame w = 7#3 ∨ infoFrame w = 0#3 ∧ b = true := by
  simp only [infoReserved, Bool.or_eq_true, Bool.and_eq_true, decide_eq_true_eq]
  tauto

theorem afterFault_iff (s : State) :
    s.afterFault = true ↔ s.seq.extractLsb' 0 2 = 3#2 ∨ s.termCause = .lineFault := by
  have h : ∀ n : Fin 64, seqPhase (BitVec.ofNat 6 n) = .faulted ↔ (BitVec.ofNat 6 n).extractLsb' 0 2 = 3#2 := by decide
  have h := h ⟨s.seq.toNat, s.seq.isLt⟩
  simp only [BitVec.ofNat_toNat, BitVec.setWidth_eq] at h
  simp only [State.afterFault, Bool.or_eq_true, decide_eq_true_eq, h]

/-- What the block writes into FAULT_INFO is not reserved (R30). -/
@[simp] theorem infoReserved_mkFaultInfo (b : Bool) (t : FrameType) (n : Nat) (op : LineOp) :
    infoReserved b (mkFaultInfo t n op) = false := by
  have h : ∀ x : BitVec 5, infoReserved b (opCode op ++ x ++ frameCode t) = false := by
    cases b <;> cases t <;> cases op <;> decide
  exact h _

/-- Nor is its reset value, before a fault. -/
@[simp] theorem infoReserved_zero : infoReserved false 0#10 = false := by decide

/-- The code 3 of SUB decodes to nothing. -/
theorem decodeSeq_reserved {w : BitVec 6} (h : w.extractLsb' 4 2 = 3#2) : decodeSeq w = .error .reservedSub := by
  simp [decodeSeq, seqSub, h]

/-- The environment reaches no register a reserved encoding could stand in. -/
theorem arrive_reservedCode (s : State) : s.arrive.reservedCode = s.reservedCode := by
  obtain ⟨-, -, hq, -, -, ht, hf, -⟩ := arrive_registers s
  unfold State.reservedCode State.afterFault
  rw [hq, ht, hf]

/-! ## What a step can do -/

/-- With reset low and no reserved encoding, a step runs what the fetched word decodes to. -/
theorem step_eq {s : State} (hr : s.arrive.resetI = false) (hc : s.arrive.reservedCode = none) :
    step s = match decode s.arrive.par s.arrive.fetch with
      | .ok i => exec i s.arrive.fetched
      | .error e => noOperation s.arrive e := by
  simp only [step, hr, hc]
  rfl

/-- A reserved encoding ends the step. -/
theorem step_reserved {s : State} {r : Fault} (hr : s.arrive.resetI = false) (hc : s.arrive.reservedCode = some r) :
    step s = .fault r := by
  simp [step, hr, hc]

/-- A next state comes from reset, from the operation the fetched word decodes to, or from a block that has stopped. -/
theorem step_cases {s t : State} (h : step s = .next t) :
    (s.arrive.resetI = true ∧ t = s.arrive.applyReset) ∨
    (s.arrive.resetI = false ∧ s.arrive.reservedCode = none ∧ ∃ i, decode s.arrive.par s.arrive.fetch = .ok i ∧ exec i s.arrive.fetched = .next t) ∨
    (s.arrive.resetI = false ∧ s.arrive.reservedCode = none ∧ s.arrive.call = none ∧ t = s.arrive ∧
      (decodeSeq s.arrive.seq = .error .stopped ∨ decodeSeq s.arrive.seq = .error .faulted)) := by
  unfold step at h
  dsimp only at h
  split at h
  · cases h; exact .inl ⟨‹_›, rfl⟩
  · rename_i hr
    have hr : s.arrive.resetI = false := by simpa using hr
    split at h
    · cases h
    · rename_i hres
      split at h
      · exact .inr (.inl ⟨hr, hres, _, ‹_›, h⟩)
      · rename_i e he
        refine .inr (.inr ⟨hr, hres, ?_⟩)
        unfold noOperation at h
        split at h <;> first | (cases h; done) | skip
        all_goals
          rename_i hc
          cases h
          simp only [State.fetch, hc, Option.getD_none, decode] at he
          exact ⟨hc, rfl, by simp [he]⟩

/-- Without a call the word fetched is SEQ. -/
theorem fetch_seq {s : State} (h : s.call = none) : s.fetch = .seq s.seq := by simp [State.fetch, h]

@[simp] theorem fetched_of_none {s : State} (h : s.call = none) : s.fetched = s := by
  ext1 <;> simp [h]

/-! ## Runs of the machine -/

theorem run_zero (s : State) : core.run 0 s = .next s := rfl

theorem run_succ (n : Nat) {s t : State} (h : step s = .next t) : core.run (n + 1) s = core.run n t := by
  simp only [Host.Core.run]
  rw [show core.step s = .next t from h]

theorem run_add (m n : Nat) : ∀ {s t : State}, core.run m s = .next t → core.run (m + n) s = core.run n t := by
  induction m with
  | zero => intro s t h; cases h; rw [Nat.zero_add]
  | succ m ih =>
    intro s t h
    rw [Nat.succ_add]
    cases hs : step s with
    | next u => rw [run_succ _ hs] at h ⊢; exact ih h
    | fault r =>
      have : core.run (m + 1) s = .fault r := by simp only [Host.Core.run]; rw [show core.step s = .fault r from hs]
      rw [this] at h; cases h
    | refused r =>
      have : core.run (m + 1) s = .refused r := by simp only [Host.Core.run]; rw [show core.step s = .refused r from hs]
      rw [this] at h; cases h

end Sys2Proof.Machine
end

