-- ==== Sys2Proof/Tests/Slice0.lean ====
section
/-!
SUPPORT. Tests whose expected results are written from spec/95_test_vectors.md and the rules (the vector is named with each
test), ill-formed operands the check refuses, and for every statement with hypotheses a state and operands that meet them.
-/

namespace Sys2Proof.Tests

open Sys2Proof Sys2Proof.Machine

-- One theorem after another: each waiting kernel evaluation would hold a thread of its own.
set_option Elab.async false

/-! ## Helpers: the reference configuration (decision D30) and small states under it -/

/-- REFCFG (D30); the two labels of R102 are in every configuration. -/
def refcfg : KftParams where
  cmdPartition := 0x05#8
  cmdLights := 0x3C#8
  cmdDatetime := 0xA5#8
  cmdQuery := 0x11#8
  disabledByte := 0xC7#8
  placeholderByte := 0xAA#8
  sentinel := 0x55#8
  void := 0xFF#8
  buttonTable := Vector.replicate 256 none
  initFlags := 0x81#8
  flagsMutable := false
  respIdx := 2
  sentIdx := 4
  respCap := 8
  tTol := 0

/-- The block under REFCFG with this SEQ and record, `rtc_i` as in part 3 of the vectors. -/
def at_ (w : BitVec 6) (rec : List Entry) : State :=
  { State.reset with par := refcfg, flags := 0x81#8, seq := w, record := rec, rtcI := ⟨24, 3, 17, 14, 5⟩ }

/-- The same with the coming samples. -/
def hearing (w : BitVec 6) (rec : List Entry) (bs : List Level) : State := { at_ w rec with dataI := bs }

/-- The same where the n-th line primitive to come does not complete. -/
def failing (w : BitVec 6) (rec : List Entry) (n : Nat) (o : LineOutcome) : State :=
  { hearing w rec (List.replicate 120 true) with lineI := List.replicate n .ok ++ [o] }

/-- What a result that is a next state shows. -/
def seen {α : Type} (r : Result) (f : State → α) : Option α :=
  match r with
  | .next s => some (f s)
  | .fault _ => none
  | .refused _ => none

/-- The refusal a result is, if it is one. -/
def refusal (r : Result) : Option Refusal :=
  match r with
  | .next _ => none
  | .fault _ => none
  | .refused e => some e

/-- The fault of the model a result is, if it is one. -/
def modelFault (r : Result) : Option Fault :=
  match r with
  | .next _ => none
  | .fault e => some e
  | .refused _ => none

/-- The next state of a result that has one. -/
def after (r : Result) : State :=
  match r with
  | .next s => s
  | .fault _ => State.reset
  | .refused _ => State.reset

theorem eq_after {r : Result} (h : (seen r fun _ => ()) = some ()) : r = .next (after r) := by
  cases r <;> first | rfl | cases h

/-- What the decoder yields, if it yields an operation. -/
def decoded (w : OpWord) : Option Instr :=
  match decode refcfg w with
  | .ok i => some i
  | .error _ => none

/-- Why the decoder refuses a word, if it does. -/
def refusedBy (w : OpWord) : Option DecodeError :=
  match decode refcfg w with
  | .ok _ => none
  | .error e => some e

/-! ## Operands the check refuses -/

theorem test_wf_frame_of_four : (Instr.xchgFrame [0x05#8, 0x81#8, 0x01#8, 0x91#8]).wf = false := by decide +kernel
theorem test_wf_checksum_of_nothing : (Instr.cksum []).wf = false := by decide +kernel
theorem test_wf_year_100 : (Instr.buildDt ⟨100, 1, 1, 0, 0⟩).wf = false := by decide +kernel
theorem test_wf_month : (Instr.buildDt ⟨0, 0, 1, 0, 0⟩).wf = false ∧ (Instr.buildDt ⟨0, 13, 1, 0, 0⟩).wf = false := by
  decide +kernel
theorem test_wf_day : (Instr.buildDt ⟨0, 1, 0, 0, 0⟩).wf = false ∧ (Instr.buildDt ⟨0, 1, 32, 0, 0⟩).wf = false := by
  decide +kernel
theorem test_wf_hour_24 : (Instr.buildDt ⟨0, 1, 1, 24, 0⟩).wf = false := by decide +kernel
theorem test_wf_minute_60 : (Instr.buildDt ⟨0, 1, 1, 0, 60⟩).wf = false := by decide +kernel

/-! ## Decoding: words written out from R27, R55 to R62, S17, S18 and E1, E4, K4, K8, K9 -/

theorem test_decode_seq : (decoded (.seq 0b000000#6), decoded (.seq 0b000001#6), decoded (.seq 0b000101#6),
    decoded (.seq 0b001001#6), decoded (.seq 0b001101#6)) =
    (some .poll, some .stepPart, some .stepZone, some .stepLights, some .stepDt) := by decide +kernel

theorem test_decode_query_post : (decoded (.seq 0b010001#6), decoded (.seq 0b010101#6), decoded (.seq 0b100001#6),
    decoded (.seq 0b100101#6), decoded (.seq 0b101001#6), decoded (.seq 0b101101#6)) =
    (some (.query .part), some (.query .zone), some (.post .part), some (.post .zone), some (.post .lights),
      some (.post .dt)) := by decide +kernel

theorem test_decode_no_operation : (refusedBy (.seq 0b000010#6), refusedBy (.seq 0b000011#6), refusedBy (.seq 0b110001#6),
    refusedBy (.seq 0b110000#6)) =
    (some .stopped, some .faulted, some .reservedSub, some .reservedSub) := by decide +kernel

/-- R73, R105: SUB = QUERY in the zone-lights and datetime steps (log 24). -/
theorem test_decode_query_late_steps : (decoded (.seq 0b011001#6), decoded (.seq 0b011101#6)) =
    (some (.query .lights), some (.query .dt)) := by decide +kernel

theorem test_decode_part : decoded (.frame [0x05#8, 0x81#8, 0x01#8, 0x91#8, 0xC7#8]) = some (.buildPart 0x81#8) := by decide +kernel

theorem test_decode_zone : decoded (.frame [0x27#8, 0x81#8, 0x01#8, 0x91#8, 0xC7#8, 0x02#8, 0x03#8]) =
    some (.buildZone 0x81#8) := by decide +kernel

theorem test_decode_lights : decoded (.frame [0x3C#8, 0x81#8, 0x01#8, 0x65#8, 0#8, 0#8, 0#8, 0#8, 0x23#8]) =
    some (.buildLights 0x81#8) := by decide +kernel

theorem test_decode_dt : decoded (.frame [0xA5#8, 0x24#8, 0x0E#8, 0x2E#8, 0x14#8, 0#8, 0#8, 0x19#8]) =
    some (.buildDt ⟨24, 3, 17, 14, 5⟩) := by decide +kernel

theorem test_decode_query_frame : decoded (.frame [0x11#8, 0xAA#8, 0xAA#8, 0xAA#8, 0xAA#8, 0xAA#8, 0xAA#8, 0xAA#8,
    0xAA#8, 0xAA#8, 0xAA#8, 0xAA#8]) = some .buildQuery := by decide +kernel

theorem test_decode_wrong_checksum :
    refusedBy (.frame [0x27#8, 0x81#8, 0x01#8, 0x91#8, 0xC7#8, 0x02#8, 0x04#8]) = some .frameChecksum := by decide +kernel

theorem test_decode_wrong_constant :
    refusedBy (.frame [0x05#8, 0x81#8, 0x01#8, 0x91#8, 0xC6#8]) = some .frameConstant := by decide +kernel

/-- Month 13 has a packing of its own (R67), and no meaning (R96): checksum A5 + 00 + 34 + 20 + 00. -/
theorem test_decode_month_13 :
    refusedBy (.frame [0xA5#8, 0x00#8, 0x34#8, 0x20#8, 0x00#8, 0#8, 0#8, 0xF9#8]) = some .dateTime := by decide +kernel

theorem test_decode_slots : (decoded (.slots [.bit]), decoded (.slots [.byte 0xA5#8]),
    decoded (.slots [.byte 0x05#8, .bit, .byte 0x81#8, .byte 0x01#8, .byte 0x91#8, .byte 0xC7#8])) =
    (some .recvBit, some (.xchgByte 0xA5#8), some (.xchgFrame [0x05#8, 0x81#8, 0x01#8, 0x91#8, 0xC7#8])) := by decide +kernel

theorem test_decode_slots_shape : (refusedBy (.slots [.byte 0x05#8, .byte 0x81#8, .bit]),
    refusedBy (.slots [.byte 0x05#8, .bit, .byte 0x81#8, .byte 0x01#8, .byte 0x91#8])) =
    (some .slotShape, some .slotShape) := by decide +kernel

theorem test_decode_called : [Instr.lineSetClk false, .lineSetData true, .lineGet, .cksum [0xFF#8], .encStatus,
    .decResp 0x05#8, .halt .stopSignal, .fault .dt .get].all (fun i => decoded (.called i) = some i) = true := by decide +kernel

theorem test_decode_selected_elsewhere : refusedBy (.called .poll) = some .selectedElsewhere := by decide +kernel

theorem test_decode_table_words : (decodeTableWord 8 0x27, decodeTableWord 8 0x00, decodeTableWord 8 0x01,
    decodeTableWord 8 0x11, decodeTableWord 8 0x21, decodeTableWord 8 0x0D) =
    (some (.buildZone 0x00#8), some .poll, some .stepPart, some (.query .part), some (.post .part), some .stepDt) := by
  decide +kernel

/-! ## One step of each operation -/

/-- T1. -/
theorem test_line_set_clk : seen (exec (.lineSetClk false) (at_ 0x01#6 [])) (fun t => (t.clkO, t.dataO, t.trace)) =
    some (false, true, [.clk false]) := by decide +kernel

/-- T2: setting the level it has still fails (R81), OP 1. -/
theorem test_line_set_data_fails : seen (exec (.lineSetData true) (failing 0x01#6 [] 0 .fail))
    (fun t => (t.faultInfo, t.seq, t.termCause)) = some (0x101#10, 0x03#6, .lineFault) := by decide +kernel

/-- T2. -/
theorem test_line_set_data : seen (exec (.lineSetData true) (at_ 0x01#6 [])) (fun t => (t.dataO, t.trace)) =
    some (true, [.data true]) := by decide +kernel

/-- T3. -/
theorem test_line_get : seen (exec .lineGet (hearing 0x01#6 [] [false, true]))
    (fun t => (t.ret, t.clkO, t.dataO, t.dataI, t.trace)) = some (.bit false, true, true, [true], [.sample false]) := by
  decide +kernel

/-- T4. -/
theorem test_recv_bit : seen (exec .recvBit (hearing 0x01#6 [] [false])) (fun t => (t.ret, t.record.map Entry.bits,
    t.trace.filter Event.isLine)) =
    some (.bit false, [0x00100#17], [.clk false, .data true, .sample false, .data true, .clk true]) := by decide +kernel

/-- T6. -/
theorem test_xchg_byte : seen (exec (.xchgByte 0xA5#8)
    (hearing 0x01#6 [] [true, false, true, true, false, false, true, false]))
    (fun t => (t.ret, t.record.map Entry.bits, t.clkO, t.dataO)) =
    some (.byte 0xB2#8, [0x1A5B2#17], true, true) := by decide +kernel

/-- T15: the third sample fails (R124, OP 2); no entry. -/
theorem test_xchg_byte_fault : seen (exec (.xchgByte 0xA5#8) (failing 0x01#6 [] 11 .fail))
    (fun t => (t.record, infoOp t.faultInfo, t.seq)) = some ([], 2#2, 0x03#6) := by decide +kernel

/-- T12. -/
theorem test_xchg_frame : seen (exec (.xchgFrame [0x05#8, 0x81#8, 0x01#8, 0x91#8, 0xC7#8])
    (hearing 0x01#6 [] (List.replicate 41 true)))
    (fun t => t.record.map Entry.bits) =
    some [0x105FF#17, 0x00101#17, 0x181FF#17, 0x101FF#17, 0x191FF#17, 0x1C7FF#17] := by decide +kernel

/-- K1. -/
theorem test_cksum_wraps : seen (exec (.cksum [0xFF#8, 0xFF#8]) (at_ 0x00#6 [])) (fun t => t.ret) =
    some (.frame [0xFF#8, 0xFF#8, 0xFE#8]) := by decide +kernel

/-- E1. -/
theorem test_cksum_source : seen (exec (.cksum [0x27#8, 0x81#8, 0x01#8, 0x91#8, 0xC7#8, 0x02#8]) (at_ 0x00#6 []))
    (fun t => t.ret) = some (.frame [0x27#8, 0x81#8, 0x01#8, 0x91#8, 0xC7#8, 0x02#8, 0x03#8]) := by decide +kernel

/-- K4. -/
theorem test_build_part : seen (exec (.buildPart 0x81#8) (at_ 0x00#6 [])) (fun t => t.ret) =
    some (.frame [0x05#8, 0x81#8, 0x01#8, 0x91#8, 0xC7#8]) := by decide +kernel

/-- K6, status byte 7E. -/
theorem test_build_zone : seen (exec (.buildZone 0x7E#8) (at_ 0x00#6 [])) (fun t => t.ret) =
    some (.frame [0x27#8, 0x7E#8, 0x01#8, 0x91#8, 0xC7#8, 0x02#8, 0x00#8]) := by decide +kernel

/-- K8. -/
theorem test_build_lights : seen (exec (.buildLights 0x81#8) (at_ 0x00#6 [])) (fun t => t.ret) =
    some (.frame [0x3C#8, 0x81#8, 0x01#8, 0x65#8, 0#8, 0#8, 0#8, 0#8, 0x23#8]) := by decide +kernel

/-- DT3. -/
theorem test_build_dt : seen (exec (.buildDt ⟨99, 12, 31, 23, 59⟩) (at_ 0x00#6 [])) (fun t => t.ret) =
    some (.frame [0xA5#8, 0x99#8, 0x33#8, 0xF7#8, 0xEC#8, 0#8, 0#8, 0x54#8]) := by decide +kernel

/-- DT8. -/
theorem test_build_dt_refused : refusal (exec (.buildDt ⟨24, 13, 1, 0, 0⟩) (at_ 0x00#6 [])) = some .dateTimeOutOfRange := by
  decide +kernel

/-- K9. -/
theorem test_build_query : seen (exec .buildQuery (at_ 0x00#6 [])) (fun t => t.ret) =
    some (.frame [0x11#8, 0xAA#8, 0xAA#8, 0xAA#8, 0xAA#8, 0xAA#8, 0xAA#8, 0xAA#8, 0xAA#8, 0xAA#8, 0xAA#8, 0xAA#8]) := by
  decide +kernel

/-- S-E6: BYPASS, MEMORY and ERROR. -/
theorem test_enc_status : seen (exec .encStatus { at_ 0x00#6 [] with flags := 0b00011100#8 }) (fun t => t.ret) =
    some (.byte 0x1C#8) := by decide +kernel

/-- S-D2. -/
theorem test_dec_resp_mapped : seen (exec (.decResp 0x28#8) (at_ 0x00#6 [])) (fun t => t.ret) =
    some (.label ⟨true, 0x28#8⟩) := by decide +kernel

/-- S-D5. -/
theorem test_dec_resp_sentinel : seen (exec (.decResp 0x55#8) (at_ 0x00#6 [])) (fun t => t.ret) =
    some (.label ⟨false, 0x55#8⟩) := by decide +kernel

/-- S13: the stop signal goes first, and the token stays. -/
theorem test_poll_stop_first : seen (exec .poll { at_ 0x00#6 [] with stopI := true, cmd := [.shutdown] })
    (fun t => (t.termCause.code, t.cmd, t.seq)) = some (2#2, [.shutdown], 0x02#6) := by decide +kernel

/-- S15: the wait has run out. -/
theorem test_poll_timeout : seen (exec .poll { at_ 0x00#6 [] with pollT := 3000000#22 })
    (fun t => (t.seq, t.trace, t.pollT)) = some (0x01#6, [.timeout], 3000000#22) := by decide +kernel

/-- S1: byte 3 of the partition-status frame receives the sentinel. -/
theorem test_step_part_sentinel :
    seen (exec .stepPart (hearing 0x01#6 [] (scriptSamples 5 [(3, 0x55#8)] true)))
      (fun t => (t.seq, t.unk, t.record.map Entry.bits)) =
    some (0x11#6, true, [0x105FF#17, 0x00101#17, 0x181FF#17, 0x101FF#17, 0x19155#17, 0x1C7FF#17]) := by decide +kernel

/-- S2, S3: bytes 2 and 4 do not count. -/
theorem test_step_part_other_bytes :
    seen (exec .stepPart (hearing 0x01#6 [] (scriptSamples 5 [(2, 0x55#8), (4, 0x55#8)] true)))
      (fun t => (t.seq, t.unk)) = some (0x21#6, false) := by decide +kernel

/-- QD1. -/
theorem test_step_zone : seen (exec .stepZone (hearing 0x05#6 [] (scriptSamples 7 [] true)))
    (fun t => (t.seq, t.record.map Entry.bits)) =
    some (0x25#6, [0x127FF#17, 0x00101#17, 0x181FF#17, 0x101FF#17, 0x191FF#17, 0x1C7FF#17, 0x102FF#17, 0x103FF#17]) := by
  decide +kernel

/-- F2: zone-status frame, byte 2, first sample. -/
theorem test_step_zone_fault :
    seen (exec .stepZone { hearing 0x05#6 [] (scriptSamples 7 [] true) with lineI := scriptFault 2 .get })
      (fun t => (t.faultInfo, t.record.map Entry.bits, t.seq, t.termCause.code)) =
    some (0x21A#10, [0x127FF#17, 0x00101#17, 0x181FF#17], 0x03#6, 3#2) := by decide +kernel

/-- S5: no sentinel test. -/
theorem test_step_lights : seen (exec .stepLights (hearing 0x09#6 [] (scriptSamples 9 [(3, 0x55#8)] true)))
    (fun t => (t.seq, t.unk, t.record.length)) = some (0x29#6, false, 10) := by decide +kernel

/-- QD3. -/
theorem test_step_dt : seen (exec .stepDt (hearing 0x0D#6 [] (scriptSamples 8 [] true)))
    (fun t => (t.seq, t.record.map Entry.bits)) =
    some (0x2D#6, [0x1A5FF#17, 0x00101#17, 0x124FF#17, 0x10EFF#17, 0x12EFF#17, 0x114FF#17, 0x100FF#17, 0x100FF#17,
      0x119FF#17]) := by decide +kernel

/-- S8: the query's own byte 3 is not tested. -/
theorem test_query : seen (exec (.query .zone) (hearing 0x15#6 (quietEntries [1#8, 2#8, 3#8, 4#8, 5#8, 6#8, 7#8])
    (scriptSamples 12 [(3, 0x55#8)] true))) (fun t => (t.seq, t.record.length)) = some (0x25#6, 21) := by decide +kernel

/-- R105: the query frame of a zone-lights step is followed by its POST (log 24). -/
theorem test_query_lights : seen (exec (.query .lights) (hearing 0x19#6 [] (scriptSamples 12 [] true)))
    (fun t => (t.seq, t.record.length, t.unk)) = some (0x29#6, 13, false) := by decide +kernel

/-- D6: with RESP_IDX = 3 the void test reads the fourth entry. -/
theorem test_post_other_index : seen (exec (.post .zone) { at_ 0x25#6 [.byte 0x27#8 0xFF#8, .bit true true,
    .byte 0x81#8 0x05#8, .byte 0x01#8 0x28#8] with par := { refcfg with respIdx := 3 } }) (fun t => t.resp) =
    some [⟨true, 0x28#8⟩] := by decide +kernel

/-- S10: the label, then the diagnostics item. -/
theorem test_post_label : seen (exec (.post .zone) (at_ 0x25#6 [.byte 0x27#8 0xFF#8, .bit true true, .byte 0x81#8 0x05#8]))
    (fun t => (t.seq, t.record, t.resp, t.trace)) =
    some (0x09#6, [], [⟨true, 0x05#8⟩], [.resp ⟨true, 0x05#8⟩,
      .diag [.byte 0x27#8 0xFF#8, .bit true true, .byte 0x81#8 0x05#8] false]) := by decide +kernel

/-- P6: the channel is full; the label is dropped. -/
theorem test_post_overflow : seen (exec (.post .dt) { at_ 0x2D#6 [.byte 0xA5#8 0xFF#8, .bit true true, .byte 0x24#8 0x28#8]
    with resp := List.replicate 8 ⟨true, 0x05#8⟩, pollT := 7#22 }) (fun t => (t.seq, t.resp.length, t.respOvf, t.pollT)) =
    some (0x00#6, 8, true, 0#22) := by decide +kernel

/-- R108. -/
theorem test_halt : seen (exec (.halt .shutdownToken) (at_ 0x00#6 [])) (fun t => (t.termCause.code, t.seq, t.trace)) =
    some (1#2, 0x02#6, [.halt .shutdownToken]) := by decide +kernel

/-- F6: keybus-query frame after 20 entries, a sample. -/
theorem test_fault : seen (exec (.fault .query .get) (at_ 0x15#6 (List.replicate 20 (.bit true true))))
    (fun t => (t.faultInfo, t.seq, t.termCause.code, t.trace)) =
    some (0x2A5#10, 0x03#6, 3#2, [.fault 0x2A5#10, .halt .lineFault]) := by decide +kernel

/-! ## Whole steps -/

/-- RS2: reset from FAULTED. -/
theorem test_reset_from_faulted :
    seen (step { at_ 0x03#6 [.bit true true] with resetI := true, faultInfo := 0x21A#10, termCause := .lineFault })
      (fun t => (t.flags, t.seq, t.record, t.faultInfo, t.termCause.code)) = some (0x81#8, 0x00#6, [], 0x000#10, 0#2) := by decide +kernel

/-- R75. -/
theorem test_reserved_seq : modelFault (step (at_ 0x31#6 [])) = some .reservedSeq ∧
    modelFault (step { at_ 0x31#6 [] with call := some (.slots [.bit]) }) = some .reservedSeq := by decide +kernel

/-- R75: FAULTED with FRAME 0, IDLE with FRAME 6, and OP 3. -/
theorem test_reserved_fault_info : [modelFault (step (at_ 0x03#6 [])), modelFault (step { at_ 0x00#6 [] with faultInfo := 6#10 }),
    modelFault (step { at_ 0x03#6 [] with faultInfo := 0x301#10, termCause := .lineFault })] =
    List.replicate 3 (some .reservedFaultInfo) := by decide +kernel

/-- R39. -/
theorem test_absent_entry : modelFault (step (at_ 0x21#6 [.bit true true])) = some .recordIndexAbsent := by decide +kernel

/-- R23: what arrives before a step is read by it; a token is what POLL takes (R107). -/
theorem test_token_arrives : seen (step { at_ 0x00#6 [] with schedule := [[.token "SHUTDOWN"]] })
    (fun t => (t.seq, t.cmd, t.trace)) = some (0x02#6, [], [.pop .shutdown, .halt .shutdownToken]) := by decide +kernel

/-- TM4, the partition-status frame. -/
theorem test_frame_time : seen (exec .stepPart (hearing 0x01#6 [] (scriptSamples 5 [] true)))
    (fun t => nominalTime t.trace) = some 30450 := by decide +kernel

/-! ## A state and operands that meet the hypotheses of each statement -/

theorem witness_AssertedResetTakesResetState :
    (State.arrive { at_ 0x03#6 [] with schedule := [[.setReset true]] }).resetI = true := by decide +kernel

theorem witness_StepRunsTheDecodedOperation : (at_ 0x21#6 []).arrive.resetI = false ∧
    (at_ 0x21#6 []).arrive.reservedCode = none ∧
    decode (at_ 0x21#6 []).arrive.par (at_ 0x21#6 []).arrive.fetch = .ok (.post .part) := ⟨rfl, rfl, rfl⟩

theorem witness_WrittenWordsDecode : refcfg.cmdDatetime = 0xA5#8 := rfl

theorem witness_DecodeInvertsEncode : (Instr.xchgFrame [1#8, 2#8, 3#8, 4#8, 5#8]).wf = true ∧
    (Instr.buildDt ⟨0, 1, 1, 0, 0⟩).wf = true ∧ (Instr.buildDt ⟨99, 12, 31, 23, 59⟩).wf = true ∧
    (Instr.cksum [0#8]).wf = true ∧ (Instr.query .dt).wf = true := by decide +kernel

theorem witness_AcceptedWireWordsReencode :
    decode refcfg (.frame [0xA5#8, 0x24#8, 0x0E#8, 0x2E#8, 0x14#8, 0#8, 0#8, 0x19#8]) = .ok (.buildDt ⟨24, 3, 17, 14, 5⟩) ∧
    decode refcfg (.slots [.byte 5#8, .bit, .byte 1#8, .byte 2#8, .byte 3#8, .byte 4#8]) =
      .ok (.xchgFrame [5#8, 1#8, 2#8, 3#8, 4#8]) := ⟨rfl, rfl⟩

theorem witness_ReservedSubFaults : ∀ w : BitVec 6, w = 0x30#6 ∨ w = 0x3F#6 → ((at_ w []).arrive.resetI = false ∧
    (at_ w []).arrive.seq.extractLsb' 4 2 = 3#2) ∧
    ({ at_ 0x00#6 [] with call := some (.seq w) } : State).arrive.resetI = false ∧
    ({ at_ 0x00#6 [] with call := some (.seq w) } : State).arrive.reservedCode = none ∧
    ({ at_ 0x00#6 [] with call := some (.seq w) } : State).arrive.call = some (.seq w) ∧ w.extractLsb' 4 2 = 3#2 := by
  rintro w (rfl | rfl) <;> exact ⟨⟨rfl, rfl⟩, rfl, rfl, rfl, rfl⟩

/-- One state for each clause: OP 3, FRAME 6 and 7, FRAME 0 in FAULTED and with TERM_CAUSE = LINE_FAULT. -/
theorem witness_ReservedFaultInfoFaults : (at_ 0x03#6 []).arrive.resetI = false ∧
    (at_ 0x03#6 []).arrive.seq.extractLsb' 4 2 ≠ 3#2 ∧
    [step { at_ 0x00#6 [] with faultInfo := 0x301#10 }, step { at_ 0x00#6 [] with faultInfo := 6#10 },
      step { at_ 0x00#6 [] with faultInfo := 7#10 }, step (at_ 0x03#6 []),
      step { at_ 0x00#6 [] with termCause := .lineFault }].map modelFault =
      List.replicate 5 (some .reservedFaultInfo) := ⟨rfl, by decide, by decide +kernel⟩

/-- The state F2 leaves: faulted in byte 2 of a zone-status frame. -/
def faulted : State :=
  { at_ 0x03#6 [.byte 0x27#8 0xFF#8, .bit true true, .byte 0x81#8 0xFF#8] with
    termCause := .lineFault, faultInfo := 0x21A#10 }

theorem witness_StoppedAndFaultedStay : ((at_ 0x02#6 []).arrive.resetI = false ∧ (at_ 0x02#6 []).arrive.call = none ∧
    (at_ 0x02#6 []).arrive.reservedCode = none ∧ (at_ 0x02#6 []).arrive.seq = 0x02#6) ∧ faulted.arrive.resetI = false ∧
    faulted.arrive.call = none ∧ faulted.arrive.reservedCode = none ∧ faulted.arrive.seq = 0x03#6 :=
  ⟨⟨rfl, rfl, rfl, rfl⟩, rfl, rfl, rfl, rfl⟩

/-- For the statements about LINE_SET_CLK, LINE_SET_DATA and LINE_GET: a primitive that completes, and one that fails in a frame
exchange. -/
theorem witness_LinePrimitives : (at_ 0x01#6 []).outcomeAt 0 = .ok ∧
    seqFrame (failing 0x11#6 [] 0 .fail).seq = some .query ∧ (failing 0x11#6 [] 0 .fail).outcomeAt 0 = .fail :=
  ⟨rfl, rfl, rfl⟩

theorem completes (w : BitVec 6) (rec : List Entry) (bs : List Level) (n : Nat) : (hearing w rec bs).linesComplete n :=
  fun _ _ => rfl

theorem failing_completes (w : BitVec 6) (rec : List Entry) (n : Nat) (o : LineOutcome) :
    (failing w rec n o).linesComplete n := fun k hk => by
  simp [State.outcomeAt, failing, List.getElem?_append_left, hk]

theorem failing_outcome (w : BitVec 6) (rec : List Entry) (n : Nat) (o : LineOutcome) :
    (failing w rec n o).outcomeAt n = o := by
  simp [State.outcomeAt, failing]

/-- The first failing primitive is the first, and the last, of a bit slot. -/
theorem witness_RecvBitExchangesABit : (at_ 0x01#6 []).linesComplete 5 ∧
    (seqFrame (failing 0x01#6 [] 0 .fail).seq = some .part ∧ (failing 0x01#6 [] 0 .fail).linesComplete 0 ∧
      (failing 0x01#6 [] 0 .fail).outcomeAt 0 = .fail) ∧
    seqFrame (failing 0x01#6 [] 4 .fail).seq = some .part ∧ (failing 0x01#6 [] 4 .fail).linesComplete 4 ∧
    (failing 0x01#6 [] 4 .fail).outcomeAt 4 = .fail :=
  ⟨fun _ _ => rfl, ⟨rfl, fun _ h => absurd h (by simp), rfl⟩, rfl, failing_completes _ _ _ _, rfl⟩

theorem witness_XchgByteExchangesAByte : (at_ 0x01#6 []).linesComplete 40 ∧
    (failing 0x01#6 [] 0 .fail).outcomeAt 0 = .fail ∧
    seqFrame (failing 0x01#6 [] 39 .fail).seq = some .part ∧ (failing 0x01#6 [] 39 .fail).linesComplete 39 ∧
    (failing 0x01#6 [] 39 .fail).outcomeAt 39 = .fail :=
  ⟨fun _ _ => rfl, rfl, rfl, failing_completes _ _ _ _, rfl⟩

/-- Also for CompleteExchangesEndHigh: a shortest frame, its first and last bytes. -/
theorem witness_XchgFrameAppendsEntries : 5 ≤ [1#8, 2#8, 3#8, 4#8, 5#8].length ∧
    (at_ 0x01#6 []).linesComplete (40 * [1#8, 2#8, 3#8, 4#8, 5#8].length + 5) ∧
    [1#8, 2#8, 3#8, 4#8, 5#8][0]? = some 1#8 ∧ [1#8, 2#8, 3#8, 4#8, 5#8][1]? = some 2#8 ∧
    [1#8, 2#8, 3#8, 4#8, 5#8][4]? = some 5#8 := ⟨by decide, fun _ _ => rfl, rfl, rfl, rfl⟩

theorem witness_CompleteExchangesEndHigh : (at_ 0x01#6 []).linesComplete 5 ∧ (at_ 0x01#6 []).linesComplete 40 ∧
    (at_ 0x01#6 []).linesComplete (40 * [1#8, 2#8, 3#8, 4#8, 5#8].length + 5) :=
  ⟨fun _ _ => rfl, fun _ _ => rfl, fun _ _ => rfl⟩

/-- A state in which all eight samples of a byte exchange are 1. -/
def quietByte : State := hearing 0x01#6 [] (List.replicate 8 true)

theorem witness_SamplesAreTakenWithDataHigh : ∃ t es, quietByte.dataO = true ∧ quietByte.linesComplete 40 ∧
    exec (.xchgByte 0xA5#8) quietByte = .next t ∧ t.trace = quietByte.trace ++ es ∧
    es = [.clk false, .wait .xsetup] ++ .sample true :: es.drop 3 :=
  ⟨after (exec (.xchgByte 0xA5#8) quietByte), (after (exec (.xchgByte 0xA5#8) quietByte)).trace, rfl, fun _ _ => rfl,
    eq_after (by decide +kernel), rfl, by decide +kernel⟩

/-- A state in which the five bytes of a frame are exchanged with samples 1. -/
def quietFrame : State := hearing 0x01#6 [] (List.replicate 41 true)

theorem witness_FrameExchangeNominalTime : ∃ t es, quietFrame.linesComplete (40 * [1#8, 2#8, 3#8, 4#8, 5#8].length + 5) ∧
    exec (.xchgFrame [1#8, 2#8, 3#8, 4#8, 5#8]) quietFrame = .next t ∧ t.trace = quietFrame.trace ++ es :=
  ⟨after (exec (.xchgFrame [1#8, 2#8, 3#8, 4#8, 5#8]) quietFrame),
    (after (exec (.xchgFrame [1#8, 2#8, 3#8, 4#8, 5#8]) quietFrame)).trace, fun _ _ => rfl, eq_after (by decide +kernel),
    (List.nil_append _).symm⟩

theorem witness_CksumAppendsSum : [0x00#8] ≠ [] := by decide +kernel

/-- For BuildDtFrame and DatetimePackingReversible: all fields at their least and at their greatest. -/
theorem witness_BuildDtFrame : DateTime.inRange ⟨0, 1, 1, 0, 0⟩ = true ∧ DateTime.inRange ⟨99, 12, 31, 23, 59⟩ = true := by
  decide +kernel

/-- Both sides of the equivalence of DatetimeOutOfRangeRefused occur. -/
theorem witness_DatetimeOutOfRangeRefused :
    refusal (exec .stepDt { at_ 0x0D#6 [] with rtcI := ⟨100, 1, 1, 0, 0⟩ }) = some .dateTimeOutOfRange ∧
    refusal (exec (.buildDt ⟨99, 12, 31, 23, 59⟩) (at_ 0x0D#6 [])) = none := by decide +kernel

theorem witness_OperandsWithoutMeaningRefused : [1#8, 2#8, 3#8, 4#8].length < 5 ∧ ([] : List Byte).length < 5 := by decide +kernel

theorem witness_LabelTextIsTableOrCode : buttonEntry refcfg.buttonTable 0x05#8 = some "1" := rfl

/-- For DecRespLooksUp and LabelTextIsTableOrCode: an entry of the parameter BUTTON_TABLE itself, at the last code. -/
theorem witness_DecRespLooksUp : (0xFF#8 : Byte) ≠ 0x05#8 ∧ (0xFF#8 : Byte) ≠ 0x28#8 ∧ (0xFF#8 : Byte) ≠ 0x7E#8 ∧
    (Vector.replicate 256 (some "A"))[(0xFF#8 : Byte).toNat] = some "A" := by decide +kernel

/-- One state for each clause of PollTestsInOrder, POLLT on both sides of `T_POLL`. -/
theorem witness_PollTestsInOrder :
    ({ at_ 0x00#6 [] with stopI := true } : State).stopI = true ∧
    (({ at_ 0x00#6 [] with cmd := [.shutdown] } : State).stopI = false ∧
      ({ at_ 0x00#6 [] with cmd := [.shutdown] } : State).cmd = [.shutdown]) ∧
    (({ at_ 0x00#6 [] with cmd := [.other] } : State).stopI = false ∧
      ({ at_ 0x00#6 [] with cmd := [.other] } : State).cmd = [.other]) ∧
    (({ at_ 0x00#6 [] with pollT := 3000000#22 } : State).stopI = false ∧
      ({ at_ 0x00#6 [] with pollT := 3000000#22 } : State).cmd = [] ∧
      3000000 ≤ ({ at_ 0x00#6 [] with pollT := 3000000#22 } : State).pollT.toNat) ∧
    ({ at_ 0x00#6 [] with pollT := 2999999#22 } : State).stopI = false ∧
    ({ at_ 0x00#6 [] with pollT := 2999999#22 } : State).cmd = [] ∧
    ({ at_ 0x00#6 [] with pollT := 2999999#22 } : State).pollT.toNat < 3000000 := by decide +kernel

/-- From the start of a wait, and with the whole wait over. -/
theorem witness_IdleWaitRunsOut :
    ((at_ 0x00#6 []).seq = 0x00#6 ∧ (at_ 0x00#6 []).call = none ∧ (at_ 0x00#6 []).schedule = [] ∧
      (at_ 0x00#6 []).resetI = false ∧ (at_ 0x00#6 []).stopI = false ∧ (at_ 0x00#6 []).cmd = [] ∧
      (at_ 0x00#6 []).reservedCode = none ∧ (at_ 0x00#6 []).pollT.toNat + 3000000 ≤ 3000000) ∧
    ({ at_ 0x00#6 [] with pollT := 3000000#22 } : State).pollT.toNat ≤ 3000000 := by decide +kernel

/-- For the steps without a sentinel test and for QUERY: lines that complete, a wall clock in range. -/
theorem witness_Steps : (at_ 0x09#6 []).linesComplete 365 ∧ (at_ 0x0D#6 []).rtcI.inRange = true ∧
    (at_ 0x0D#6 []).linesComplete 325 ∧ (at_ 0x11#6 []).linesComplete 485 :=
  ⟨fun _ _ => rfl, rfl, fun _ _ => rfl, fun _ _ => rfl⟩

/-- STEP_PART and STEP_ZONE from an empty record, and, SENT_IDX being 7, the last entry of the zone-status frame. -/
theorem witness_SentinelSteps :
    ((at_ 0x01#6 []).linesComplete 205 ∧ (at_ 0x01#6 []).record = [] ∧ (at_ 0x01#6 []).par.sentIdx = 4 ∧
      ((at_ 0x01#6 []).record ++ frameEntries (at_ 0x01#6 []) [0x05#8, 0x81#8, 0x01#8, 0x91#8, 0xC7#8])[4]? =
        some (.byte 0x91#8 ((at_ 0x01#6 []).rcvFrom 25))) ∧
    ((at_ 0x05#6 []).linesComplete 285 ∧ (at_ 0x05#6 []).record = [] ∧ (at_ 0x05#6 []).par.sentIdx = 4 ∧
      ((at_ 0x05#6 []).record ++ frameEntries (at_ 0x05#6 [])
          [0x27#8, 0x81#8, 0x01#8, 0x91#8, 0xC7#8, 0x02#8, 0x03#8])[4]? =
        some (.byte 0x91#8 ((at_ 0x05#6 []).rcvFrom 25))) ∧
    (([] : List Entry) ++ frameEntries (at_ 0x05#6 [])
        [0x27#8, 0x81#8, 0x01#8, 0x91#8, 0xC7#8, 0x02#8, 0x03#8])[7]? =
      some (.byte 0x03#8 ((at_ 0x05#6 []).rcvFrom 49)) :=
  ⟨⟨fun _ _ => rfl, rfl, rfl, rfl⟩, ⟨fun _ _ => rfl, rfl, rfl, rfl⟩, rfl⟩

theorem witness_QuerySelectedInEveryStep : ∀ w : BitVec 6, w = 0x11#6 ∨ w = 0x15#6 ∨ w = 0x19#6 ∨ w = 0x1D#6 →
    (at_ w []).arrive.resetI = false ∧ (at_ w []).arrive.call = none ∧ (at_ w []).arrive.reservedCode = none ∧
    (at_ w []).arrive.seq = w ∧ (at_ w []).arrive.linesComplete 485 := by
  rintro w (rfl | rfl | rfl | rfl) <;> exact ⟨rfl, rfl, rfl, rfl, fun _ _ => rfl⟩

/-- The sentinel test of STEP_PART goes both ways. -/
theorem witness_StepPart_both_ways :
    (hearing 0x01#6 [] (scriptSamples 5 [(3, 0x55#8)] true)).rcvFrom 25 = refcfg.sentinel ∧
    (hearing 0x01#6 [] (scriptSamples 5 [(3, 0x54#8)] true)).rcvFrom 25 ≠ refcfg.sentinel := by decide +kernel

/-- A record in POST whose entry RESP_IDX received `r`. -/
def replied (r : Byte) : State := at_ 0x21#6 [.byte 5#8 0xFF#8, .bit true true, .byte 0x81#8 r]

/-- The same with the response channel full. -/
def repliedFull (r : Byte) : State := { replied r with resp := List.replicate 8 ⟨true, 0x05#8⟩ }

/-- A label with room in the channel; VOID; a label that finds the channel full. -/
theorem witness_PostInspectsAndClears :
    ((replied 0x05#8).record[(replied 0x05#8).par.respIdx]? = some (.byte 0x81#8 0x05#8) ∧
      (0x05#8 : Byte) ≠ (replied 0x05#8).par.void ∧ (replied 0x05#8).resp.length < (replied 0x05#8).par.respCap) ∧
    ((replied 0xFF#8).record[(replied 0xFF#8).par.respIdx]? = some (.byte 0x81#8 0xFF#8) ∧
      (0xFF#8 : Byte) = (replied 0xFF#8).par.void) ∧
    (repliedFull 0x28#8).record[(repliedFull 0x28#8).par.respIdx]? = some (.byte 0x81#8 0x28#8) ∧
    (0x28#8 : Byte) ≠ (repliedFull 0x28#8).par.void ∧
    (repliedFull 0x28#8).par.respCap ≤ (repliedFull 0x28#8).resp.length := by decide +kernel

/-- An absent entry RESP_IDX, and a SENT_IDX just past the entries of a partition-status and of a zone-status frame. -/
theorem witness_AbsentEntryFaults :
    (at_ 0x21#6 [.byte 5#8 0xFF#8, .bit true true]).record.length ≤ (at_ 0x21#6 []).par.respIdx ∧
    ((at_ 0x01#6 []).record.length + 6 ≤ ({ refcfg with sentIdx := 6 } : KftParams).sentIdx ∧
      ({ at_ 0x01#6 [] with par := { refcfg with sentIdx := 6 } } : State).linesComplete 205) ∧
    (at_ 0x05#6 []).record.length + 8 ≤ ({ refcfg with sentIdx := 8 } : KftParams).sentIdx ∧
    ({ at_ 0x05#6 [] with par := { refcfg with sentIdx := 8 } } : State).linesComplete 285 :=
  ⟨by decide +kernel, ⟨by decide +kernel, fun _ _ => rfl⟩, by decide +kernel, fun _ _ => rfl⟩

/-- A token waits in Idle, and everything is quiet. -/
theorem witness_CycleRunsFourSteps : ∃ s : State, s.seq = 0x00#6 ∧ s.call = none ∧ s.record = [] ∧ s.unk = false ∧
    s.schedule = [] ∧ s.resetI = false ∧ (∀ k, s.outcomeAt k = .ok) ∧ s.stopI = false ∧ s.cmd = [.other, .shutdown] ∧
    s.rtcI.inRange = true ∧ s.reservedCode = none ∧ s.par.respIdx < 6 ∧ s.par.sentIdx < 6 :=
  ⟨{ at_ 0x00#6 [] with cmd := [.other, .shutdown] }, rfl, rfl, rfl, rfl, rfl, rfl, fun _ => rfl, rfl, rfl, rfl, rfl,
    by decide, by decide⟩

theorem witness_FaultEntry : (at_ 0x15#6 (List.replicate 31 (.bit true true))).record.length < 32 := by decide +kernel

/-- A frame of every type, and one presented to XCHG_FRAME. -/
theorem witness_sendsFrame : sendsFrame (at_ 0x01#6 []) .stepPart = some (.part, [0x05#8, 0x81#8, 0x01#8, 0x91#8, 0xC7#8]) ∧
    sendsFrame (at_ 0x05#6 []) .stepZone = some (.zone, [0x27#8, 0x81#8, 0x01#8, 0x91#8, 0xC7#8, 0x02#8, 0x03#8]) ∧
    sendsFrame (at_ 0x09#6 []) .stepLights =
      some (.lights, [0x3C#8, 0x81#8, 0x01#8, 0x65#8, 0#8, 0#8, 0#8, 0#8, 0x23#8]) ∧
    sendsFrame (at_ 0x0D#6 []) .stepDt = some (.dt, [0xA5#8, 0x24#8, 0x0E#8, 0x2E#8, 0x14#8, 0#8, 0#8, 0x19#8]) ∧
    sendsFrame (at_ 0x11#6 []) (.query .part) = some (.query, [0x11#8, 0xAA#8, 0xAA#8, 0xAA#8, 0xAA#8, 0xAA#8, 0xAA#8,
      0xAA#8, 0xAA#8, 0xAA#8, 0xAA#8, 0xAA#8]) ∧
    sendsFrame (at_ 0x01#6 []) (.xchgFrame [1#8, 2#8, 3#8, 4#8, 5#8]) = some (.part, [1#8, 2#8, 3#8, 4#8, 5#8]) := by
  decide +kernel

/-- For LineFaultEndsTheFrame: the first and last primitive of the first byte, of the turnaround slot, and of the frame. -/
theorem witness_LineFaultEndsTheFrame : ∀ k, k = 0 ∨ k = 39 ∨ k = 40 ∨ k = 44 ∨ k = 45 ∨ k = 204 →
    k < 40 * [0x05#8, 0x81#8, 0x01#8, 0x91#8, 0xC7#8].length + 5 ∧ (failing 0x01#6 [] k .fail).linesComplete k ∧
    (failing 0x01#6 [] k .fail).outcomeAt k = .fail := by
  intro k hk
  exact ⟨by simp only [List.length_cons, List.length_nil]; omega, failing_completes _ _ _ _, failing_outcome ..⟩

/-- In a frame, and outside every exchange: the first primitive, and the last of a bit slot, of a byte slot and of a frame. -/
theorem witness_ResetInsideFrame : ∀ w : BitVec 6, w = 0x01#6 ∨ w = 0x00#6 → ∀ k, k = 0 ∨ k = 4 ∨ k = 39 ∨ k = 204 →
    k < 40 * [0x05#8, 0x81#8, 0x01#8, 0x91#8, 0xC7#8].length + 5 ∧ (failing w [] k .reset).linesComplete k ∧
    (failing w [] k .reset).outcomeAt k = .reset := by
  intro w _ k hk
  exact ⟨by simp only [List.length_cons, List.length_nil]; omega, failing_completes _ _ _ _, failing_outcome ..⟩

/-- The same places where SEQ names no exchange: Idle and POST. -/
theorem witness_LineFaultOutsideExchangeStops : ∀ w : BitVec 6, w = 0x00#6 ∨ w = 0x21#6 →
    ∀ k, k = 0 ∨ k = 4 ∨ k = 39 ∨ k = 204 → seqFrame (failing w [] k .fail).seq = none ∧
    (failing w [] k .fail).linesComplete k ∧ (failing w [] k .fail).outcomeAt k = .fail := by
  intro w hw k _
  refine ⟨?_, failing_completes _ _ _ _, failing_outcome ..⟩
  obtain h : seqFrame w = none := by rcases hw with rfl | rfl <;> decide
  exact h

/-- A state in POST after a partition-status frame and its query. -/
def inPost : State :=
  { at_ 0x21#6 ([.byte 5#8 0xFF#8, .bit true true, .byte 0x81#8 0x05#8, .byte 1#8 0xFF#8, .byte 0x91#8 0x55#8,
    .byte 0xC7#8 0xFF#8] ++ quietEntries (queryFormat refcfg)) with unk := true }

theorem inPost_inv : inPost.Inv :=
  ⟨⟨.post .part, rfl, ⟨rfl, rfl, rfl, rfl⟩, rfl, ⟨fun _ => ⟨rfl, rfl⟩, fun _ => rfl⟩⟩, by decide +kernel, by decide +kernel,
    by decide +kernel, by decide +kernel, rfl⟩

theorem witness_InvariantKeptByStep : inPost.Inv ∧ step inPost = .next (after (step inPost)) :=
  ⟨inPost_inv, eq_after (by decide +kernel)⟩

/-- A state in STEP_DT with a wall clock out of range: the one refusal of InvariantStepNeverFaults. -/
def badClock : State := { at_ 0x0D#6 [] with rtcI := ⟨24, 13, 1, 0, 0⟩ }

theorem witness_InvariantStepNeverFaults : badClock.Inv ∧ step badClock = .refused .dateTimeOutOfRange :=
  ⟨⟨⟨.main .dt, rfl, ⟨rfl, rfl, rfl, rfl⟩, rfl, rfl⟩, by decide +kernel, by decide +kernel, by decide +kernel, by decide +kernel,
    rfl⟩, rfl⟩

theorem witness_OnlyPollReadsCommandsAndStop : Instr.stepDt ≠ .poll ∧ Instr.stepPart ≠ .stepDt := by decide +kernel

theorem witness_OperationsFrameTheInterfaces : exec (.post .part) inPost = .next (after (exec (.post .part) inPost)) :=
  eq_after (by decide +kernel)

theorem witness_OnlyPostShortensTheRecord : (∀ p, Instr.stepPart ≠ .post p) ∧ (∀ k, quietFrame.outcomeAt k ≠ .reset) ∧
    exec .stepPart quietFrame = .next (after (exec .stepPart quietFrame)) :=
  ⟨fun _ h => (by cases h), fun _ h => (by cases h), eq_after (by decide +kernel)⟩

theorem witness_FlagsKeepInitFlags : inPost.par.flagsMutable = false ∧ inPost.flags = inPost.par.initFlags ∧
    step inPost = .next (after (step inPost)) := ⟨rfl, rfl, eq_after (by decide +kernel)⟩

/-- Stopped by a token. -/
def stopped : State := { at_ 0x02#6 [] with termCause := .shutdownToken }

theorem witness_TerminationHoldsUntilReset :
    (stopped.Inv ∧ stopped.arrive.resetI = false ∧ stopped.termCause ≠ .running ∧
      step stopped = .next (after (step stopped))) ∧
    faulted.Inv ∧ faulted.arrive.resetI = false ∧ faulted.termCause ≠ .running ∧
    step faulted = .next (after (step faulted)) :=
  ⟨⟨⟨⟨.stopped, rfl, rfl, rfl, rfl, rfl, rfl, .inl rfl⟩, by decide +kernel, by decide +kernel, by decide +kernel,
      by decide +kernel, rfl⟩, rfl, by decide, eq_after (by decide +kernel)⟩,
    ⟨⟨.faulted, rfl, rfl, by decide +kernel, .zone, .get, rfl⟩, by decide +kernel, by decide +kernel, by decide +kernel,
      by decide +kernel, rfl⟩, rfl, by decide, eq_after (by decide +kernel)⟩

theorem witness_RespOvfIsSticky : ∃ s : State, s.noReset ∧ s.respOvf = true ∧ step s = .next (after (step s)) :=
  ⟨{ inPost with respOvf := true }, ⟨rfl, fun _ h => (by cases h)⟩, rfl, eq_after (by decide +kernel)⟩

/-- A label is emitted, and none is. -/
theorem witness_AtMostOneLabelAStep : (inPost.arrive.call = none ∧ step inPost = .next (after (step inPost)) ∧
    (after (step inPost)).resp = [⟨true, 0x05#8⟩]) ∧ stopped.arrive.call = none ∧
    step stopped = .next (after (step stopped)) :=
  ⟨⟨rfl, eq_after (by decide +kernel), by decide +kernel⟩, rfl, eq_after (by decide +kernel)⟩

theorem witness_FetchWordRunsNext : (0x00 < 64 ∧ decodeSeq (BitVec.ofNat 6 0x00) = .ok .poll) ∧
    (0x2D < 64 ∧ decodeSeq (BitVec.ofNat 6 0x2D) = .ok (.post .dt)) ∧
    ({ State.reset with seq := BitVec.ofNat 6 0x2D } : State).reservedCode = none := ⟨⟨by decide, rfl⟩, ⟨by decide, rfl⟩, rfl⟩

end Sys2Proof.Tests
end

section
/-!
PROOFS. The encodings: decoding gives back what was encoded (30_encoding.md R55 to R68, R73), format by format.
-/

namespace Sys2Proof

/-! ## SEQ words -/

/-- In a cycle SUB selects the operation of the step (R73). -/
@[simp] theorem decodeSeq_cycle (p : Step) (u : Sub) : decodeSeq (mkSeq .cycle p u) = decodeCycle p u := by
  simp [decodeSeq]

@[simp] theorem decodeSeq_idle (p : Step) (u : Sub) : decodeSeq (mkSeq .idle p u) = .ok .poll := by
  simp [decodeSeq]

@[simp] theorem decodeSeq_stopped (p : Step) (u : Sub) : decodeSeq (mkSeq .stopped p u) = .error .stopped := by
  simp [decodeSeq]

@[simp] theorem decodeSeq_faulted (p : Step) (u : Sub) : decodeSeq (mkSeq .faulted p u) = .error .faulted := by
  simp [decodeSeq]

/-! ## Wire frames -/

theorem decodeFrame_partFormat (p : KftParams) (st : Byte) : decodeFrame p (partFormat p st) = .ok (.buildPart st) := by
  simp [decodeFrame, partFormat]

theorem decodeFrame_zoneFormat (p : KftParams) (st : Byte) : decodeFrame p (zoneFormat st) = .ok (.buildZone st) := by
  simp [decodeFrame, zoneFormat, withSum]

theorem decodeFrame_lightsFormat (p : KftParams) (st : Byte) :
    decodeFrame p (lightsFormat p st) = .ok (.buildLights st) := by
  simp [decodeFrame, lightsFormat, withSum]

/-- The packing loses nothing of a date and time in range (R68), so the decoder finds it in the four bytes. -/
theorem decodeFrame_dtFormat (p : KftParams) {t : DateTime} (h : t.inRange = true) :
    decodeFrame p (dtFormat p t) = .ok (.buildDt t) := by
  obtain ⟨b1, b2, b3, b4, hp, hu⟩ := unpackBits_packBits h
  simp [decodeFrame, dtFormat, withSum, hp, hu, h]

theorem decodeFrame_queryFormat (p : KftParams) : decodeFrame p (queryFormat p) = .ok .buildQuery := by
  simp [decodeFrame, queryFormat, List.replicate]

/-! ## Slots and calls -/

/-- The exchange shape of at least five bytes reads as XCHG_FRAME of them (R56, R86). -/
theorem decodeSlots_frameSlots {f : List Byte} (h : 5 ≤ f.length) : decodeSlots (frameSlots f) = .ok (.xchgFrame f) := by
  cases f with
  | nil => simp at h
  | cons b bs =>
    have hbs : 4 ≤ bs.length := by simpa using h
    simp [frameSlots, decodeSlots, slotBytes_map, hbs]

theorem decode_called (p : KftParams) {i : Instr} (hc : i.isCalled = true) (hw : i.wf = true) :
    decode p (.called i) = .ok i := by
  simp [decode, hc, hw]

end Sys2Proof

namespace Sys2Proof.Machine

/-- Settles O5, by the three kinds of word an encoding is: a value of SEQ, a wire format, a call. -/
theorem decodeInvertsEncode : Obligations.DecodeInvertsEncode := by
  intro p i hw
  cases i with
  | recvBit => rfl
  | xchgByte b => rfl
  | xchgFrame f => exact decodeSlots_frameSlots (by simpa [Instr.wf] using hw)
  | buildPart st => exact decodeFrame_partFormat p st
  | buildZone st => exact decodeFrame_zoneFormat p st
  | buildLights st => exact decodeFrame_lightsFormat p st
  | buildDt t => exact decodeFrame_dtFormat p hw
  | buildQuery => exact decodeFrame_queryFormat p
  | poll => exact decodeSeq_idle .part .main
  | stepPart => exact decodeSeq_cycle .part .main
  | stepZone => exact decodeSeq_cycle .zone .main
  | stepLights => exact decodeSeq_cycle .lights .main
  | stepDt => exact decodeSeq_cycle .dt .main
  | query p => exact decodeSeq_cycle p .query
  | post p => exact decodeSeq_cycle p .post
  | lineSetClk | lineSetData | lineGet | cksum | encStatus | decResp | halt | fault => exact decode_called p rfl hw

/-! ## Words written from the encodings -/

/-- The datetime frame of E4 carries the checksum 19 and the packing of 24-03-17 14:05. -/
theorem decodeFrame_E4 (p : KftParams) (h : p.cmdDatetime = 0xA5#8) :
    decodeFrame p [0xA5#8, 0x24#8, 0x0E#8, 0x2E#8, 0x14#8, 0x00#8, 0x00#8, 0x19#8] =
      .ok (.buildDt { y := 24, mo := 3, d := 17, h := 14, mi := 5 }) := by
  have hf : dtFormat p { y := 24, mo := 3, d := 17, h := 14, mi := 5 } =
      [0xA5#8, 0x24#8, 0x0E#8, 0x2E#8, 0x14#8, 0x00#8, 0x00#8, 0x19#8] := by
    rw [dtFormat, h]; rfl
  rw [← hf]
  exact decodeFrame_dtFormat p rfl

/-- Settles O4: the SEQ words by evaluation, the two frames because they are wire formats. -/
theorem writtenWordsDecode : Obligations.WrittenWordsDecode :=
  ⟨⟨rfl, rfl, rfl, rfl, rfl, rfl, rfl, rfl, rfl, rfl, rfl⟩, fun p => decodeFrame_zoneFormat p 0x81#8, decodeFrame_E4⟩

end Sys2Proof.Machine
end

section
/-!
PROOFS. Operations over the lines that end part-way (60_exceptions.md R124, R126; 70_reset_and_hazards.md R136), and reads of the
record past its end (10_state.md R39).
-/

namespace Sys2Proof.Machine

/-! ## The operations over the lines as frame exchanges -/

/-- A presented frame of at least five bytes is exchanged in whatever frame SEQ stands. -/
theorem exec_xchgFrame {s : State} {f : List Byte} (h : 5 ≤ f.length) :
    exec (.xchgFrame f) s =
      conclude (seqFrame s.seq) (xchgFrame f s) fun _ s => .next (s.returns .nothing) := by
  rw [exec, execXchgFrame, if_neg (by omega)]

theorem ne_nil_of_five_le {f : List Byte} (h : 5 ≤ f.length) : f ≠ [] := List.ne_nil_of_length_pos (by omega)

/-- An operation that sends a frame concludes the exchange of that frame. -/
theorem exec_of_sendsFrame {s : State} {i : Instr} {t : FrameType} {f : List Byte} (h : sendsFrame s i = some (t, f)) :
    f ≠ [] ∧ ∃ k, exec i s = conclude (some t) (xchgFrame f s) k := by
  cases i with
  | stepPart => cases h; exact ⟨List.cons_ne_nil _ _, _, rfl⟩
  | stepZone => cases h; exact ⟨List.cons_ne_nil _ _, _, by rw [exec, execStepZone, buildZone_eq]⟩
  | stepLights => cases h; exact ⟨List.cons_ne_nil _ _, _, by rw [exec, execStepLights, buildLights_eq]⟩
  | query p => cases h; exact ⟨List.cons_ne_nil _ _, _, rfl⟩
  | stepDt =>
    simp only [sendsFrame] at h
    split at h
    · rename_i hr
      cases h
      exact ⟨List.cons_ne_nil _ _, _, by rw [exec, execStepDt, if_pos hr, buildDt_eq _ hr]⟩
    · cases h
  | xchgFrame g =>
    simp only [sendsFrame] at h
    split at h
    · rename_i hg
      obtain ⟨u, hu, he⟩ := Option.map_eq_some_iff.mp h
      cases he
      exact ⟨ne_nil_of_five_le hg, _, hu ▸ exec_xchgFrame hg⟩
    · cases h
  | lineSetClk | lineSetData | lineGet | recvBit | xchgByte | cksum | buildPart | buildZone | buildLights | buildDt
  | buildQuery | encStatus | decResp | poll | post | halt | fault => cases h

/-! ## A single line primitive that does not complete -/

theorem lineSetClk_stop {s : State} (v : Level) (h : s.outcomeAt 0 ≠ .ok) :
    lineSetClk v s = .stop (stopOf (s.outcomeAt 0) .setClk) s.answered := by
  rw [lineSetClk, lineAnswer_stop h, LineRes.bind_stop]

theorem lineSetData_stop {s : State} (v : Level) (h : s.outcomeAt 0 ≠ .ok) :
    lineSetData v s = .stop (stopOf (s.outcomeAt 0) .setData) s.answered := by
  rw [lineSetData, lineAnswer_stop h, LineRes.bind_stop]

theorem lineGet_stop {s : State} (h : s.outcomeAt 0 ≠ .ok) :
    lineGet s = .stop (stopOf (s.outcomeAt 0) .get) s.answered := by
  rw [lineGet, lineAnswer_stop h, LineRes.bind_stop]

/-! ## A failure outside every exchange -/

/-- Settles O44: the operation stops at place `k` with a line fault, and `conclude` has no frame to record it in. -/
theorem lineFaultOutsideExchangeStops : Obligations.LineFaultOutsideExchangeStops := by
  intro s k hs hc hf
  have hn : s.outcomeAt k ≠ .ok := by simp [hf]
  refine ⟨?_, fun hk => ?_, fun hk b => ?_, fun f h5 hk => ?_⟩
  · rintro rfl
    refine ⟨fun v => ?_, fun v => ?_, ?_⟩
    · rw [exec, execLineSetClk, hs, lineSetClk_stop v hn, hf]; rfl
    · rw [exec, execLineSetData, hs, lineSetData_stop v hn, hf]; rfl
    · rw [exec, execLineGet, hs, lineGet_stop hn, hf]; rfl
  · obtain ⟨u, hu, -⟩ := recvBit_stop hk hc hn
    rw [exec, execRecvBit, hs, hu, hf]; rfl
  · obtain ⟨u, hu, -⟩ := xchgByte_stop b hk hc hn
    rw [exec, execXchgByte, hs, hu, hf]; rfl
  · obtain ⟨u, hu, -⟩ := xchgFrame_stop (ne_nil_of_five_le h5) hk hc hn
    rw [exec_xchgFrame h5, hs, hu, hf]; rfl

/-! ## Reset inside an operation -/

/-- An exchange cut off at its `n`-th primitive is part-way there. -/
theorem Cut.partWay {s u : State} {es : List Entry} {ev : List Event} {n : Nat} (h : Cut s u es ev n) :
    s.partWay u n es ev := by
  obtain ⟨m, h⟩ := h
  refine ⟨m, ?_⟩
  rw [h]

theorem resetTo_applyReset (s : State) : s.resetTo s.applyReset := rfl

/-- An operation over the lines at one of whose primitives reset strikes ends in the reset state of where it stood. -/
theorem conclude_reset_partWay {α : Type} {ft : Option FrameType} {r : LineRes α} {k : α → State → Result} {s v : State}
    {es : List Entry} {ev : List Event} {n : Nat} (hr : r = .stop .reset v) (hcut : Cut s v es ev n) :
    ∃ v u, conclude ft r k = .next u ∧ s.partWay v n es ev ∧ v.resetTo u :=
  ⟨v, v.applyReset, by rw [hr, conclude_reset], hcut.partWay, resetTo_applyReset v⟩

/-- Settles O45: each operation concludes an exchange that reset cut off at place `k`. -/
theorem resetInsideFrame : Obligations.ResetInsideFrame := by
  intro s k hc hr
  have hn : s.outcomeAt k ≠ .ok := by simp [hr]
  have hs : ∀ op, stopOf (s.outcomeAt k) op = .reset := fun op => by rw [hr]; rfl
  refine ⟨fun i t f hi hk => ?_, fun f h5 hk => ?_, fun b hk => ?_, fun hk => ?_, fun i hk hi => ?_⟩
  · obtain ⟨hf, c, he⟩ := exec_of_sendsFrame hi
    obtain ⟨v, hv, hcut⟩ := xchgFrame_stop hf hk hc hn
    rw [he]
    exact conclude_reset_partWay (by rw [hv, hs]) hcut
  · obtain ⟨v, hv, hcut⟩ := xchgFrame_stop (ne_nil_of_five_le h5) hk hc hn
    rw [exec_xchgFrame h5]
    exact conclude_reset_partWay (by rw [hv, hs]) hcut
  · obtain ⟨v, hv, hcut⟩ := xchgByte_stop b hk hc hn
    exact conclude_reset_partWay (by rw [hv, hs]) hcut
  · obtain ⟨v, hv, hcut⟩ := recvBit_stop hk hc hn
    exact conclude_reset_partWay (by rw [hv, hs]) hcut
  · subst hk
    refine ⟨s.answered.applyReset, ?_, resetTo_applyReset _⟩
    obtain ⟨v, rfl⟩ | ⟨v, rfl⟩ | rfl := hi
    · rw [exec, execLineSetClk, lineSetClk_stop v hn, hs, conclude_reset]
    · rw [exec, execLineSetData, lineSetData_stop v hn, hs, conclude_reset]
    · rw [exec, execLineGet, lineGet_stop hn, hs, conclude_reset]

/-! ## Entries the record does not have -/

theorem sentinelTest_absent {s : State} (p : Step) (h : s.record.length ≤ s.par.sentIdx) :
    sentinelTest p s = .fault .recordIndexAbsent := by
  rw [sentinelTest, List.getElem?_eq_none h]

theorem execPost_absent {s : State} (p : Step) (h : s.record.length ≤ s.par.respIdx) :
    execPost p s = .fault .recordIndexAbsent := by
  rw [execPost, List.getElem?_eq_none h]

/-- A complete frame adds one entry more than it has bytes to the record (R87). -/
theorem afterFrame_record_length (s : State) {f : List Byte} (h : f ≠ []) :
    (s.afterFrame f).record.length = s.record.length + (f.length + 1) := by
  simp [State.afterFrame, frameEntries_length s f h]

/-- Settles O40. -/
theorem absentEntryFaults : Obligations.AbsentEntryFaults := by
  refine fun s => ⟨fun p h => execPost_absent p h, fun h hc => ?_, fun h hc => ?_⟩
  · have hf : buildPart s.par (statusByte s.flags) ≠ [] := List.cons_ne_nil _ _
    rw [exec, execStepPart, xchgFrame_done hf hc, conclude_done]
    exact sentinelTest_absent _ ((afterFrame_record_length s hf).trans_le h)
  · have hf : buildZone (statusByte s.flags) ≠ [] := List.cons_ne_nil _ _
    rw [exec, execStepZone, xchgFrame_done hf hc, conclude_done]
    exact sentinelTest_absent _ ((afterFrame_record_length s hf).trans_le h)

end Sys2Proof.Machine
end

section
/-!
PROOFS. What the operations leave alone (10_state.md R15, R18, R25, R26, R31, R35): from what an operation can do (`exec_cases`),
and from what each named update of the state does.
-/

namespace Sys2Proof.Machine

/-! ## What POLL does (R107) -/

/-- The five outcomes of an instant of Idle. -/
theorem pollStep_cases (s : State) :
    s.pollStep = s.halt .stopSignal ∨
    (∃ rest, s.cmd = .shutdown :: rest ∧ s.pollStep = (s.popCmd .shutdown rest).halt .shutdownToken) ∨
    (∃ rest, s.cmd = .other :: rest ∧ s.pollStep = (s.popCmd .other rest).cycleStart) ∨
    s.pollStep = (s.emit .timeout).cycleStart ∨
    (s.pollT < Config.tPoll ∧ s.pollStep = { s with pollT := s.pollT + 1#22 }) := by
  unfold State.pollStep
  split
  · exact .inl rfl
  · split
    · rename_i rest h
      exact .inr (.inl ⟨rest, h, rfl⟩)
    · rename_i rest h
      exact .inr (.inr (.inl ⟨rest, h, rfl⟩))
    · split
      · exact .inr (.inr (.inr (.inl rfl)))
      · rename_i h
        exact .inr (.inr (.inr (.inr ⟨BitVec.not_le.mp h, rfl⟩)))

@[simp] theorem pollStep_record (s : State) : s.pollStep.record = s.record := by
  obtain h | ⟨_, _, h⟩ | ⟨_, _, h⟩ | h | ⟨_, h⟩ := pollStep_cases s <;> simp [h]

@[simp] theorem pollStep_respOvf (s : State) : s.pollStep.respOvf = s.respOvf := by
  obtain h | ⟨_, _, h⟩ | ⟨_, _, h⟩ | h | ⟨_, h⟩ := pollStep_cases s <;> simp [h]

@[simp] theorem pollStep_resp (s : State) : s.pollStep.resp = s.resp := by
  obtain h | ⟨_, _, h⟩ | ⟨_, _, h⟩ | h | ⟨_, h⟩ := pollStep_cases s <;> simp [h]

/-- `FLAGS` do not change at a cycle start unless they are mutable (R26, R109). -/
theorem pollStep_flags {s : State} (hm : s.par.flagsMutable = false) : s.pollStep.flags = s.flags := by
  obtain h | ⟨_, _, h⟩ | ⟨_, _, h⟩ | h | ⟨_, h⟩ := pollStep_cases s <;> simp [h, hm]

/-- POLL takes at most the head of the command channel (R18). -/
theorem pollStep_cmd (s : State) : s.pollStep.cmd = s.cmd ∨ s.pollStep.cmd = s.cmd.tail := by
  obtain h | ⟨_, hc, h⟩ | ⟨_, hc, h⟩ | h | ⟨_, h⟩ := pollStep_cases s <;> rw [h]
  · exact .inl rfl
  · exact .inr (by rw [hc]; rfl)
  · exact .inr (by rw [hc]; simp)
  · exact .inl (by simp)
  · exact .inl rfl

/-! ## What POST does (R116, R117) -/

/-- VOID_TEST leaves the channel alone, or puts one label into it where there is room (R31). -/
theorem voidTest_resp (s : State) (r : Byte) : (s.voidTest r).resp = s.resp ∨
    s.resp.length < s.par.respCap ∧ ∃ l, (s.voidTest r).resp = s.resp ++ [l] := by
  unfold State.voidTest
  split
  · exact .inl rfl
  · rw [State.emitResp_resp]
    split
    · exact .inr ⟨‹_›, _, rfl⟩
    · exact .inl rfl

theorem voidTest_respOvf_of_set {s : State} (r : Byte) (h : s.respOvf = true) : (s.voidTest r).respOvf = true := by
  unfold State.voidTest
  split <;> simp [h]

theorem voidTest_trace (s : State) (r : Byte) : s.trace <+: (s.voidTest r).trace := by
  unfold State.voidTest
  split
  · exact List.prefix_rfl
  · rw [State.emitResp_trace]
    split
    · exact List.prefix_append ..
    · exact List.prefix_rfl

@[simp] theorem postStep_resp (s : State) (p : Step) (r : Byte) : (s.postStep p r).resp = (s.voidTest r).resp := by
  simp [State.postStep]

@[simp] theorem postStep_respOvf (s : State) (p : Step) (r : Byte) :
    (s.postStep p r).respOvf = (s.voidTest r).respOvf := by
  simp [State.postStep]

@[simp] theorem postStep_flags (s : State) (p : Step) (r : Byte) : (s.postStep p r).flags = s.flags := by
  simp [State.postStep]

@[simp] theorem postStep_cmd (s : State) (p : Step) (r : Byte) : (s.postStep p r).cmd = s.cmd := by
  simp [State.postStep]

/-! ## The frame of every operation -/

/-- `t` has the parameters and the inputs an operation only reads as they are in `s`, and everything `s` had emitted. -/
structure Frames (s t : State) : Prop where
  par : t.par = s.par
  stopI : t.stopI = s.stopI
  rtcI : t.rtcI = s.rtcI
  resetI : t.resetI = s.resetI
  schedule : t.schedule = s.schedule
  resp : s.resp <+: t.resp
  diag : s.diag <+: t.diag
  trace : s.trace <+: t.trace

namespace Frames

theorem trans {s t u : State} (h : Frames s t) (k : Frames t u) : Frames s u :=
  ⟨k.par.trans h.par, k.stopI.trans h.stopI, k.rtcI.trans h.rtcI, k.resetI.trans h.resetI, k.schedule.trans h.schedule,
    h.resp.trans k.resp, h.diag.trans k.diag, h.trace.trans k.trace⟩

/-- An update that writes none of these fields. -/
theorem of_eq {s t : State} (hp : t.par = s.par) (hs : t.stopI = s.stopI) (hc : t.rtcI = s.rtcI) (hr : t.resetI = s.resetI)
    (hl : t.schedule = s.schedule) (hq : t.resp = s.resp) (hd : t.diag = s.diag) (ht : t.trace = s.trace) : Frames s t :=
  ⟨hp, hs, hc, hr, hl, hq ▸ List.prefix_rfl, hd ▸ List.prefix_rfl, ht ▸ List.prefix_rfl⟩

theorem returns (s : State) (r : OpResult) : Frames s (s.returns r) := .of_eq rfl rfl rfl rfl rfl rfl rfl rfl

theorem applyReset (s : State) : Frames s s.applyReset := .of_eq rfl rfl rfl rfl rfl rfl rfl rfl

theorem emit (s : State) (e : Event) : Frames s (s.emit e) :=
  ⟨rfl, rfl, rfl, rfl, rfl, List.prefix_rfl, List.prefix_rfl, List.prefix_append ..⟩

theorem popCmd (s : State) (k : Token) (rest : List Token) : Frames s (s.popCmd k rest) :=
  ⟨rfl, rfl, rfl, rfl, rfl, List.prefix_rfl, List.prefix_rfl, List.prefix_append ..⟩

theorem halt (s : State) (c : HaltCause) : Frames s (s.halt c) :=
  ⟨rfl, rfl, rfl, rfl, rfl, List.prefix_rfl, List.prefix_rfl, List.prefix_append ..⟩

theorem takeFault (s : State) (t : FrameType) (op : LineOp) : Frames s (s.takeFault t op) :=
  ⟨rfl, rfl, rfl, rfl, rfl, List.prefix_rfl, List.prefix_append .., List.prefix_append ..⟩

theorem cycleStart (s : State) : Frames s s.cycleStart := by
  apply of_eq <;> simp

theorem pollStep (s : State) : Frames s s.pollStep := by
  obtain h | ⟨rest, -, h⟩ | ⟨rest, -, h⟩ | h | ⟨-, h⟩ := pollStep_cases s <;> rw [h]
  · exact halt s _
  · exact (popCmd s _ rest).trans (halt _ _)
  · exact (popCmd s _ rest).trans (cycleStart _)
  · exact (emit s _).trans (cycleStart _)
  · exact .of_eq rfl rfl rfl rfl rfl rfl rfl rfl

theorem voidTest (s : State) (r : Byte) : Frames s (s.voidTest r) := by
  refine ⟨by simp, by simp, by simp, by simp, by simp, ?_, by simp, voidTest_trace s r⟩
  obtain h | ⟨-, l, h⟩ := voidTest_resp s r <;> rw [h]
  exact List.prefix_append ..

theorem emitStepDiag (s : State) (p : Step) : Frames s (s.emitStepDiag p) :=
  ⟨rfl, rfl, rfl, rfl, rfl, List.prefix_rfl, List.prefix_append .., List.prefix_append ..⟩

theorem leaveStep (s : State) (p : Step) : Frames s (s.leaveStep p) := by
  apply of_eq <;> simp

theorem postStep (s : State) (p : Step) (r : Byte) : Frames s (s.postStep p r) :=
  have hclear : ∀ u : State, Frames u { u.recClear with unk := false } := fun _ => .of_eq rfl rfl rfl rfl rfl rfl rfl rfl
  (voidTest s r).trans ((emitStepDiag _ p).trans ((hclear _).trans (leaveStep _ p)))

theorem of_touched {s u : State} (h : Touched s u) : Frames s u := by
  obtain ⟨es, ev, h⟩ := h
  rw [h]
  exact ⟨rfl, rfl, rfl, rfl, rfl, List.prefix_rfl, List.prefix_rfl, List.prefix_append ..⟩

theorem of_linesLeave {s t : State} (h : LinesLeave s t) : Frames s t := by
  obtain ⟨u, hu, ⟨q, x, r, rfl, -⟩ | ⟨f, op, rfl⟩ | ⟨-, rfl⟩⟩ := h
  · exact (of_touched hu).trans (.of_eq rfl rfl rfl rfl rfl rfl rfl rfl)
  · exact (of_touched hu).trans (takeFault u f op)
  · exact (of_touched hu).trans (applyReset u)

theorem of_exec {s t : State} {i : Instr} (h : exec i s = .next t) : Frames s t := by
  obtain ⟨r, rfl⟩ | h | ⟨-, rfl⟩ | ⟨p, e, -, -, rfl⟩ | ⟨c, -, rfl⟩ := exec_cases h
  · exact returns s r
  · exact of_linesLeave h
  · exact (pollStep s).trans (returns _ _)
  · exact (postStep s p e.rcv).trans (returns _ _)
  · exact (halt s c).trans (returns _ _)

end Frames

/-! ## What an operation over the lines leaves alone -/

namespace Touched

variable {s u : State}

theorem par (h : Touched s u) : u.par = s.par := by obtain ⟨_, _, h⟩ := h; rw [h]

theorem flags (h : Touched s u) : u.flags = s.flags := by obtain ⟨_, _, h⟩ := h; rw [h]

theorem respOvf (h : Touched s u) : u.respOvf = s.respOvf := by obtain ⟨_, _, h⟩ := h; rw [h]

theorem pollT (h : Touched s u) : u.pollT = s.pollT := by obtain ⟨_, _, h⟩ := h; rw [h]

theorem cmd (h : Touched s u) : u.cmd = s.cmd := by obtain ⟨_, _, h⟩ := h; rw [h]

theorem resp (h : Touched s u) : u.resp = s.resp := by obtain ⟨_, _, h⟩ := h; rw [h]

theorem call (h : Touched s u) : u.call = s.call := by obtain ⟨_, _, h⟩ := h; rw [h]

theorem record (h : Touched s u) : s.record <+: u.record := by
  obtain ⟨_, _, h⟩ := h
  rw [h]
  exact List.prefix_append ..

end Touched

theorem LinesLeave.cmd {s t : State} (h : LinesLeave s t) : t.cmd = s.cmd := by
  obtain ⟨u, hu, ⟨q, x, r, rfl, -⟩ | ⟨f, op, rfl⟩ | ⟨-, rfl⟩⟩ := h <;> exact hu.cmd

theorem LinesLeave.resp {s t : State} (h : LinesLeave s t) : t.resp = s.resp := by
  obtain ⟨u, hu, ⟨q, x, r, rfl, -⟩ | ⟨f, op, rfl⟩ | ⟨-, rfl⟩⟩ := h <;> exact hu.resp

/-- Unless reset strikes, the operation neither writes `RESP_OVF` nor takes an entry out of the record. -/
theorem LinesLeave.of_noReset {s t : State} (h : LinesLeave s t) (hn : ∀ k, s.outcomeAt k ≠ .reset) :
    t.respOvf = s.respOvf ∧ s.record <+: t.record := by
  obtain ⟨u, hu, ⟨q, x, r, rfl, -⟩ | ⟨f, op, rfl⟩ | ⟨⟨k, hk⟩, -⟩⟩ := h
  · exact ⟨hu.respOvf, hu.record⟩
  · exact ⟨hu.respOvf, hu.record⟩
  · exact absurd hk (hn k)

/-- `FLAGS` stay, or take `INIT_FLAGS` where reset strikes (R136). -/
theorem LinesLeave.flags {s t : State} (h : LinesLeave s t) : t.flags = s.flags ∨ t.flags = s.par.initFlags := by
  obtain ⟨u, hu, ⟨q, x, r, rfl, -⟩ | ⟨f, op, rfl⟩ | ⟨-, rfl⟩⟩ := h
  · exact .inl hu.flags
  · exact .inl hu.flags
  · exact .inr (by rw [State.applyReset_flags, hu.par])

/-! ## Every operation -/

/-- Only POLL takes from the command channel. -/
theorem exec_cmd {s t : State} {i : Instr} (h : exec i s = .next t) : t.cmd = s.cmd ∨ i = .poll ∧ t.cmd = s.cmd.tail := by
  obtain ⟨r, rfl⟩ | h | ⟨rfl, rfl⟩ | ⟨p, e, -, -, rfl⟩ | ⟨c, -, rfl⟩ := exec_cases h
  · exact .inl rfl
  · exact .inl h.cmd
  · exact (pollStep_cmd s).imp id fun h => ⟨rfl, h⟩
  · exact .inl (by simp)
  · exact .inl rfl

/-- Only POST emits a label, and at most one. -/
theorem exec_resp {s t : State} {i : Instr} (h : exec i s = .next t) :
    t.resp = s.resp ∨ (∃ l, t.resp = s.resp ++ [l]) ∧ ∃ p, i = .post p := by
  obtain ⟨r, rfl⟩ | h | ⟨-, rfl⟩ | ⟨p, e, rfl, -, rfl⟩ | ⟨c, -, rfl⟩ := exec_cases h
  · exact .inl rfl
  · exact .inl h.resp
  · exact .inl (pollStep_resp s)
  · rw [State.returns_resp, postStep_resp]
    exact (voidTest_resp s e.rcv).imp id fun h => ⟨h.2, p, rfl⟩
  · exact .inl rfl

/-- No operation clears `RESP_OVF` (R31). -/
theorem exec_respOvf {s t : State} {i : Instr} (h : exec i s = .next t) (hn : ∀ k, s.outcomeAt k ≠ .reset)
    (ho : s.respOvf = true) : t.respOvf = true := by
  obtain ⟨r, rfl⟩ | h | ⟨-, rfl⟩ | ⟨p, e, -, -, rfl⟩ | ⟨c, -, rfl⟩ := exec_cases h
  · exact ho
  · exact (h.of_noReset hn).1.trans ho
  · exact (pollStep_respOvf s).trans ho
  · rw [State.returns_respOvf, postStep_respOvf]
    exact voidTest_respOvf_of_set _ ho
  · exact ho

/-- With `FLAGS_MUTABLE` false an operation leaves `FLAGS`, or reset gives them `INIT_FLAGS` (R26). -/
theorem exec_flags {s t : State} {i : Instr} (h : exec i s = .next t) (hm : s.par.flagsMutable = false) :
    t.flags = s.flags ∨ t.flags = s.par.initFlags := by
  obtain ⟨r, rfl⟩ | h | ⟨-, rfl⟩ | ⟨p, e, -, -, rfl⟩ | ⟨c, -, rfl⟩ := exec_cases h
  · exact .inl rfl
  · exact h.flags
  · exact .inl (pollStep_flags hm)
  · exact .inl (by simp)
  · exact .inl rfl

/-- Settles O50. -/
theorem operationsFrameTheInterfaces : Obligations.OperationsFrameTheInterfaces := by
  intro s t i h
  have hf := Frames.of_exec h
  exact ⟨hf.par, hf.stopI, hf.rtcI, hf.resetI, hf.schedule, fun a => by rw [hf.par], hf.resp, hf.diag, hf.trace, exec_cmd h⟩

/-- Settles O51, by what each kind of operation does to the record. -/
theorem onlyPostShortensTheRecord : Obligations.OnlyPostShortensTheRecord := by
  intro s t i hi hn h
  obtain ⟨r, rfl⟩ | h | ⟨-, rfl⟩ | ⟨p, e, hp, -, -⟩ | ⟨c, -, rfl⟩ := exec_cases h
  · exact List.prefix_rfl
  · exact (h.of_noReset hn).2
  · rw [State.returns_record, pollStep_record]
  · exact absurd hp (hi p)
  · exact List.prefix_rfl

/-! ## Every step -/

/-- Settles O52: a step is reset, an operation, or nothing. -/
theorem flagsKeepInitFlags : Obligations.FlagsKeepInitFlags := by
  intro s t hm hi h
  obtain ⟨hp, hf, -⟩ := arrive_registers s
  obtain ⟨-, rfl⟩ | ⟨-, -, i, -, he⟩ | ⟨-, -, -, rfl, -⟩ := step_cases h
  · exact ⟨hp, rfl⟩
  · have htp : t.par = s.par := (Frames.of_exec he).par.trans hp
    refine ⟨htp, ?_⟩
    obtain h | h := exec_flags he (by rw [State.fetched_par, hp, hm])
    · rw [h, State.fetched_flags, hf, hi, htp]
    · rw [h, State.fetched_par, hp, htp]
  · exact ⟨hp, by rw [hf, hp, hi]⟩

/-- Settles O54. -/
theorem respOvfIsSticky : Obligations.RespOvfIsSticky := by
  rintro s t ⟨hr, hn⟩ ho h
  obtain ⟨-, -, -, -, -, -, -, hovf, -⟩ := arrive_registers s
  have ho : s.arrive.respOvf = true := hovf.trans ho
  obtain ⟨hr', -⟩ | ⟨-, -, i, -, he⟩ | ⟨-, -, -, rfl, -⟩ := step_cases h
  · simp [hr] at hr'
  · exact exec_respOvf he hn ho
  · exact ho

/-- SEQ selects POST only in a cycle with SUB = POST (R73). -/
theorem decodeSeq_eq_post {w : BitVec 6} {p : Step} (h : decodeSeq w = .ok (.post p)) : w = mkSeq .cycle p .post := by
  unfold decodeSeq at h
  split at h
  · cases h
  · rename_i u hu
    split at h
    · cases h
    · rename_i hph
      cases u with
      | main => cases hp : seqStep w <;> simp [decodeCycle, hp] at h
      | query => cases h
      | post =>
        cases h
        rw [← hph]
        exact (mkSeq_fields hu).symm
    · cases h
    · cases h

/-- Settles O55: only POST emits, and without a call SEQ selects it. -/
theorem atMostOneLabelAStep : Obligations.AtMostOneLabelAStep := by
  intro s t hc h
  obtain ⟨-, rfl⟩ | ⟨-, -, i, hd, he⟩ | ⟨-, -, -, rfl, -⟩ := step_cases h
  · exact .inl rfl
  · obtain h | ⟨hl, p, rfl⟩ := exec_resp he
    · exact .inl h
    · rw [fetch_seq hc] at hd
      have hw : s.arrive.seq = mkSeq .cycle p .post := decodeSeq_eq_post hd
      refine .inr ⟨hl, ?_⟩
      rw [hw]
      cases p <;> decide
  · exact .inl rfl

end Sys2Proof.Machine
end

section
/-!
PROOFS. The register view (10_state.md R25), and the SEQ words of the opcode table (30_encoding.md R73; log 10).
-/

namespace Sys2Proof.Machine

/-! ## Registers -/

/-- Settles O1, each register by evaluation of the reset state. -/
theorem resetRegisterValues : Obligations.ResetRegisterValues :=
  ⟨rfl, rfl, rfl, rfl, rfl, rfl, rfl, rfl, rfl, rfl, rfl⟩

/-- The register view shows ten fields, and the record only by its length. -/
theorem register_congr {s t : State} (hf : t.flags = s.flags) (hq : t.seq = s.seq) (hr : t.record = s.record)
    (hu : t.unk = s.unk) (ht : t.termCause = s.termCause) (hi : t.faultInfo = s.faultInfo) (ho : t.respOvf = s.respOvf)
    (hp : t.pollT = s.pollT) (hc : t.clkO = s.clkO) (hd : t.dataO = s.dataO) (n : Nat) : t.register n = s.register n := by
  unfold State.register State.recLen
  rw [hf, hq, hr, hu, ht, hi, ho, hp, hc, hd]

/-- Settles O56, by the fields no action writes. -/
theorem environmentWritesNoRegister : Obligations.EnvironmentWritesNoRegister := by
  intro s a
  obtain ⟨hpar, hf, hq, hr, hu, ht, hi, ho, hp, hc, hd, hdiag, htr, -⟩ := act_registers s a
  exact ⟨register_congr hf hq hr hu ht hi ho hp hc hd, hr, hpar, hdiag, htr⟩

/-! ## Table words -/

/-- A table word that is a value of SEQ selecting an operation stands for that value. -/
theorem tableWord_of_decodeSeq {w : Nat} {i : Instr} (hw : w < 64) (h : decodeSeq (BitVec.ofNat 6 w) = .ok i) :
    tableWord w = .seq (BitVec.ofNat 6 w) := by
  rw [tableWord, if_neg (by omega), if_neg (by omega), h]

/-- Only where SEQ selects POST does placing it touch the record. -/
theorem selectSeq_eq_goto {s : State} {w : BitVec 6} {i : Instr} (hd : decodeSeq w = .ok i)
    (h : s.record.length > s.par.respIdx ∨ ∀ p, i ≠ .post p) : s.selectSeq w = s.goto w := by
  refine if_neg fun ⟨hph, hsub, hlen⟩ => ?_
  obtain h | h := h
  · omega
  · have : decodeSeq w = .ok (.post (seqStep w)) := by rw [decodeSeq, hsub, hph]; rfl
    rw [this] at hd
    cases hd
    exact h _ rfl

theorem selectSeq_seq (s : State) (w : BitVec 6) : (s.selectSeq w).seq = w := by
  unfold State.selectSeq
  split <;> rfl

/-- Placing SEQ puts no reserved encoding anywhere else. -/
theorem selectSeq_reservedCode (s : State) (w : BitVec 6) :
    (s.selectSeq w).reservedCode = ({ s with seq := w } : State).reservedCode := by
  unfold State.selectSeq
  split <;> rfl

/-- The state in which the placed word runs: SEQ placed, no call, reset low. -/
def State.placed (s : State) (w : BitVec 6) : State := { s.selectSeq w with call := none, resetI := false }

/-- A placed table word is the very next to run: the batch in front of the schedule is empty. -/
theorem step_withFetchWord {s : State} {w : Nat} {i : Instr} (hw : w < 64) (hd : decodeSeq (BitVec.ofNat 6 w) = .ok i)
    (hc : ({ s with seq := BitVec.ofNat 6 w } : State).reservedCode = none) :
    step (s.withFetchWord 8 w) = exec i (s.placed (BitVec.ofNat 6 w)) := by
  have ha : (s.withFetchWord 8 w).arrive = s.placed (BitVec.ofNat 6 w) := by
    have hs : (s.selectSeq (BitVec.ofNat 6 w)).schedule = s.schedule := by unfold State.selectSeq; split <;> rfl
    rw [State.withFetchWord, if_neg (by decide), tableWord_of_decodeSeq hw hd]
    simp [State.arrive, State.placed, hs]
  have hr : (s.placed (BitVec.ofNat 6 w)).reservedCode = none := (selectSeq_reservedCode s _).trans hc
  have hq : (s.placed (BitVec.ofNat 6 w)).fetch = .seq (BitVec.ofNat 6 w) := by
    rw [fetch_seq rfl]; exact congrArg _ (selectSeq_seq s _)
  rw [step_eq (by rw [ha]; rfl) (by rw [ha]; exact hr), ha, hq, decode, hd, fetched_of_none rfl]

/-- Settles O58. -/
theorem fetchWordRunsNext : Obligations.FetchWordRunsNext := by
  intro s w i hw hd hc
  refine ⟨?_, s.placed (BitVec.ofNat 6 w), step_withFetchWord hw hd hc, selectSeq_seq s _, rfl, fun h => ?_⟩
  · rw [decodeTableWord, if_neg (by decide), tableWord_of_decodeSeq hw hd, decode, hd]
  · rw [State.placed, selectSeq_eq_goto hd h]; rfl

end Sys2Proof.Machine
end

section
/-!
PROOFS. The invariant of the block (10_state.md R27 to R39): it gives the operation a step runs, each of the block's operations
keeps it, and so does every step.
-/

namespace Sys2Proof.Machine

/-! ## The invariant without the place

What an operation shows of the next state is where it stands; the rest of the invariant is one predicate, which every operation
keeps. -/

/-- The clauses of the invariant that do not depend on where the block stands. -/
structure State.Bounded (s : State) : Prop where
  pollT : s.pollT ≤ Config.tPoll
  resp : s.resp.length ≤ s.par.respCap
  indices : s.par.respIdx < 6 ∧ s.par.sentIdx < 6
  call : s.call = none

theorem State.Inv.bounded {s : State} (h : s.Inv) : s.Bounded := ⟨h.pollT, h.resp, h.indices, h.call⟩

theorem State.Bounded.of_eq {s t : State} (h : s.Bounded) (hp : t.par = s.par) (ht : t.pollT = s.pollT)
    (hr : t.resp = s.resp) (hc : t.call = s.call) : t.Bounded :=
  ⟨ht ▸ h.pollT, by rw [hr, hp]; exact h.resp, hp ▸ h.indices, hc.trans h.call⟩

theorem State.Bounded.of_touched {s u : State} (h : s.Bounded) (hu : Touched s u) : u.Bounded :=
  h.of_eq hu.par hu.pollT hu.resp hu.call

/-! ## The record where the block stands (R87) -/

@[simp] theorem frameShape_length {n : Nat} (h : 0 < n) : (frameShape n).length = n + 1 := by
  obtain ⟨m, rfl⟩ := Nat.exists_eq_succ_of_ne_zero h.ne'
  simp [frameShape]

theorem shape_length (s : State) : s.shape.length = s.record.length := by simp [State.shape]

theorem restEntries_shape (s : State) (k : Nat) (bs : List Byte) :
    (restEntries s k bs).map Entry.isByte = List.replicate bs.length true := by
  induction bs generalizing k with
  | nil => rfl
  | cons b bs ih => simp [restEntries, Entry.isByte, List.replicate_succ, ih]

theorem frameEntries_shape (s : State) {f : List Byte} (h : f ≠ []) :
    (frameEntries s f).map Entry.isByte = frameShape f.length := by
  cases f with
  | nil => contradiction
  | cons b bs => simp [frameEntries, frameShape, Entry.isByte, restEntries_shape]

/-- A complete frame adds its shape to that of the record. -/
theorem afterFrame_shape (s : State) {f : List Byte} (h : f ≠ []) :
    (s.afterFrame f).shape = s.shape ++ frameShape f.length := by
  simp [State.shape, State.afterFrame, frameEntries_shape s h]

theorem mainLength_bounds (p : Step) : 5 ≤ mainLength p ∧ mainLength p ≤ 9 ∧ (p.hasQuery = true → mainLength p ≤ 7) := by
  cases p <;> decide

theorem record_length_query {s : State} {p : Step} (h : s.at (.query p)) : s.record.length = mainLength p + 1 := by
  obtain ⟨-, -, hs, -⟩ := h
  obtain ⟨hl, -⟩ := mainLength_bounds p
  rw [← shape_length, hs, frameShape_length (by omega)]

/-- In POST the record has the step's frame, and the query's where UNK is set. -/
theorem record_length_post {s : State} {p : Step} (h : s.at (.post p)) :
    s.record.length = mainLength p + 1 + if s.unk then 13 else 0 := by
  obtain ⟨-, hs, -⟩ := h
  obtain ⟨hl, -⟩ := mainLength_bounds p
  rw [← shape_length, hs, List.length_append, frameShape_length (by omega)]
  split <;> rfl

/-- Nowhere does the record overflow (R38). -/
theorem record_le_recCap {s : State} {c : Control} (h : s.at c) : s.record.length ≤ Config.recCap := by
  cases c with
  | idle | main =>
    obtain ⟨-, hr, -⟩ := h
    simp [hr]
  | stopped =>
    obtain ⟨hr, -⟩ := h
    simp [hr]
  | query p =>
    obtain ⟨-, hl, -⟩ := mainLength_bounds p
    rw [record_length_query h, Config.recCap]
    omega
  | post p =>
    obtain ⟨-, hl, hq⟩ := mainLength_bounds p
    rw [record_length_post h, Config.recCap]
    obtain ⟨-, -, hu⟩ := h
    split
    · have := hq (hu.mp ‹_›).1
      omega
    · omega
  | faulted =>
    obtain ⟨-, hr, -⟩ := h
    exact hr.le

/-- A state is in the invariant once it is somewhere in it. -/
theorem State.Bounded.inv {s : State} {c : Control} (h : s.Bounded) (hq : s.seq = c.seq) (ha : s.at c) : s.Inv :=
  ⟨⟨c, hq, ha⟩, record_le_recCap ha, h.pollT, h.resp, h.indices, h.call⟩

/-- Reset leads into Idle (R136). -/
theorem State.Bounded.applyReset_inv {s : State} (h : s.Bounded) : s.applyReset.Inv :=
  State.Bounded.inv (c := .idle) ⟨Nat.zero_le _, h.resp, h.indices, rfl⟩ rfl ⟨⟨rfl, rfl, rfl, rfl⟩, rfl, rfl⟩

/-- Fault entry leads into FAULTED (R124), with the record's length as it is in FAULT_INFO. -/
theorem State.Bounded.takeFault_inv {s : State} (h : s.Bounded) (hr : s.record.length < Config.recCap) (t : FrameType)
    (op : LineOp) : (s.takeFault t op).Inv :=
  State.Bounded.inv (c := .faulted) (h.of_eq rfl rfl rfl rfl) rfl ⟨rfl, hr, t, op, rfl⟩

/-! ## The environment keeps the invariant -/

theorem inv_act {s : State} (a : EnvAction) (h : s.Inv) : (s.act a).Inv := by
  have hresp : (s.act a).resp.length ≤ (s.act a).par.respCap := by
    rw [(act_registers s a).1]
    exact (act_resp_length s a).trans h.resp
  cases a <;> exact ⟨h.control, h.record, h.pollT, hresp, h.indices, h.call⟩

theorem inv_arrive {s : State} (h : s.Inv) : s.arrive.Inv :=
  arrive_keeps (P := State.Inv) (fun _ _ h => ⟨h.control, h.record, h.pollT, h.resp, h.indices, h.call⟩)
    (fun _ a h => inv_act a h) h

/-- The value an operation returns stands in no register (log 7). -/
theorem inv_returns {s : State} (h : s.Inv) (r : OpResult) : (s.returns r).Inv :=
  ⟨h.control, h.record, h.pollT, h.resp, h.indices, h.call⟩

/-! ## The operation a step runs -/

theorem seqPhase_control (c : Control) : seqPhase c.seq = .faulted ↔ c = .faulted := by
  cases c <;> simp [Control.seq, seqIdle, seqStopped, seqFaulted]

/-- FAULT_INFO holds 0 or what fault entry wrote, as TERM_CAUSE and PHASE say. -/
theorem infoReserved_at {s : State} {c : Control} (hq : s.seq = c.seq) (ha : s.at c) :
    infoReserved s.afterFault s.faultInfo = false := by
  have hzero (hc : c ≠ .faulted) (ht : s.termCause ≠ .lineFault) (hi : s.faultInfo = 0#10) :
      infoReserved s.afterFault s.faultInfo = false := by
    have hf : s.afterFault = false := by simp [State.afterFault, hq, seqPhase_control, hc, ht]
    rw [hf, hi, infoReserved_zero]
  cases c with
  | idle | main | query | post =>
    obtain ⟨⟨ht, hi, -⟩, -⟩ := ha
    exact hzero nofun (by simp [ht]) hi
  | stopped =>
    obtain ⟨-, -, hi, -, -, ht⟩ := ha
    exact hzero nofun (by obtain ht | ht := ht <;> simp [ht]) hi
  | faulted =>
    obtain ⟨-, -, t, op, hi⟩ := ha
    rw [hi, infoReserved_mkFaultInfo]

/-- Where the block stands, no register holds a reserved encoding (R75). -/
theorem reservedCode_at {s : State} {c : Control} (hq : s.seq = c.seq) (ha : s.at c) : s.reservedCode = none := by
  refine reservedCode_eq_none.mpr ⟨?_, infoReserved_at hq ha⟩
  rw [hq]
  cases c with
  | idle | stopped | faulted => decide
  | main p | query p | post p => cases p <;> decide

/-- What a step does where the block stands, once the environment has acted (R73, R135). -/
def Control.run : Control → State → Result
  | .idle, s => execPoll s
  | .main .part, s => execStepPart s
  | .main .zone, s => execStepZone s
  | .main .lights, s => execStepLights s
  | .main .dt, s => execStepDt s
  | .query p, s => execQuery p s
  | .post p, s => execPost p s
  | .stopped, s => .next s
  | .faulted, s => .next s

/-- The word SEQ holds there selects that. -/
theorem Control.run_eq {s : State} (c : Control) (hc : s.call = none) :
    (match decodeSeq c.seq with
      | .ok i => exec i s
      | .error e => noOperation s e) = c.run s := by
  cases c with
  | idle => rw [Control.seq, seqIdle, decodeSeq_idle]; rfl
  | main p => rw [Control.seq, decodeSeq_cycle]; cases p <;> rfl
  | query p => rw [Control.seq, decodeSeq_cycle]; rfl
  | post p => rw [Control.seq, decodeSeq_cycle]; rfl
  | stopped => rw [Control.seq, seqStopped, decodeSeq_stopped]; simp [noOperation, hc, Control.run]
  | faulted => rw [Control.seq, seqFaulted, decodeSeq_faulted]; simp [noOperation, hc, Control.run]

/-- From the invariant, with reset low, a step does what the block does where it stands. -/
theorem State.Inv.step_eq_run {s : State} (h : s.Inv) (hr : s.arrive.resetI = false) :
    ∃ c : Control, s.arrive.seq = c.seq ∧ s.arrive.at c ∧ step s = c.run s.arrive := by
  obtain ⟨⟨c, hq, ha⟩, -, -, -, -, hc⟩ := inv_arrive h
  refine ⟨c, hq, ha, ?_⟩
  rw [step_eq hr (reservedCode_at hq ha), fetch_seq hc, fetched_of_none hc, decode, hq]
  exact c.run_eq hc

/-! ## How an operation keeps the invariant -/

/-- A result the invariant allows of an operation begun in `s`: a next state that meets it, or the refusal of a bad wall clock in
STEP_DT (R96). -/
def KeepsInv (s : State) : Result → Prop
  | .next t => t.Inv
  | .fault _ => False
  | .refused r => r = .dateTimeOutOfRange ∧ s.seq = 0x0D#6 ∧ s.rtcI.inRange = false

theorem Cut.record {s u : State} {es : List Entry} {ev : List Event} {n : Nat} (h : Cut s u es ev n) :
    u.record = s.record ++ es := by
  obtain ⟨_, h⟩ := h
  rw [h]

/-- Before the last primitive of a frame the last entry is missing. -/
theorem entriesBefore_le {k n : Nat} (hn : 0 < n) (hk : k < 40 * n + 5) : entriesBefore k ≤ n := by
  unfold entriesBefore
  split
  · omega
  · split <;> omega

/-- An exchange the record has room for: what comes after the complete frame keeps the invariant, and so do fault entry and reset
inside it. -/
theorem keepsInv_exchange {s : State} {f : List Byte} {t : FrameType} {k : Unit → State → Result} (h : s.Bounded)
    (hf : f ≠ []) (hlen : s.record.length + f.length < Config.recCap) (hk : KeepsInv s (k () (s.afterFrame f))) :
    KeepsInv s (conclude (some t) (xchgFrame f s) k) := by
  obtain hd | ⟨j, u, hj, -, -, hu, hcut⟩ := xchgFrame_cases s hf
  · rw [hd]; exact hk
  · have hb : u.Bounded := h.of_touched (.of_cut hcut)
    have hr : u.record.length < Config.recCap := by
      have := entriesBefore_le (List.length_pos_of_ne_nil hf) hj
      rw [hcut.record, List.length_append, List.length_take]
      omega
    rw [hu]
    cases stopOf (s.outcomeAt j) (frameOpAt j) with
    | reset => exact hb.applyReset_inv
    | lineFault op => exact hb.takeFault_inv hr t op

theorem bounded_afterFrame {s : State} (h : s.Bounded) (f : List Byte) : (s.afterFrame f).Bounded :=
  h.of_touched (.exchanged ..)

/-- Complete exchanges leave both lines high (R88). -/
theorem running_afterFrame {s : State} (h : s.running) (f : List Byte) : (s.afterFrame f).running := by
  obtain ⟨ht, hi, -, -⟩ := h
  exact ⟨ht, hi, rfl, rfl⟩

/-! ## The steps' frames (R110 to R114) -/

/-- In POST after the main frame alone: no sentinel, or no test for it. -/
theorem inv_post_of_main {u : State} {p : Step} (hb : u.Bounded) (hq : u.seq = mkSeq .cycle p .post) (hrun : u.running)
    (hs : u.shape = frameShape (mainLength p)) (hu : u.unk = false) (hn : ¬ (p.hasQuery = true ∧ u.sentinelSeen)) : u.Inv :=
  hb.inv (c := .post p) hq ⟨hrun, by simp [hs, hu], by simp [hu, hn]⟩

/-- An entry below the six of the shortest frame is there once a step's frame is (R39). -/
theorem getElem?_of_shape {u : State} {p : Step} {n : Nat} {l : List Bool} (hs : u.shape = frameShape (mainLength p) ++ l)
    (hn : n < 6) : ∃ e, u.record[n]? = some e := by
  obtain ⟨hl, -⟩ := mainLength_bounds p
  have : n < u.record.length := by
    rw [← shape_length, hs, List.length_append, frameShape_length (by omega)]
    omega
  exact ⟨_, List.getElem?_eq_getElem this⟩

theorem sentinelSeen_iff {u : State} {e : Entry} (h : u.record[u.par.sentIdx]? = some e) :
    u.sentinelSeen ↔ e.rcv = u.par.sentinel := by
  simp [State.sentinelSeen, h]

/-- SENTINEL_TEST after the frame of one of the first two steps (R114): on to the query or to POST. -/
theorem sentinelTest_keepsInv {s u : State} {p : Step} (hb : u.Bounded) (hp : p.hasQuery = true) (hrun : u.running)
    (hs : u.shape = frameShape (mainLength p)) (hu : u.unk = false) : KeepsInv s (sentinelTest p u) := by
  obtain ⟨e, he⟩ := getElem?_of_shape (l := []) (by simpa using hs) hb.indices.2
  have hseen := sentinelSeen_iff he
  rw [sentinelTest, he]
  by_cases hrcv : e.rcv = u.par.sentinel
  · simp only [if_pos hrcv]
    exact State.Bounded.inv (c := .query p) (hb.of_eq rfl rfl rfl rfl) rfl ⟨hrun, hp, hs, rfl, hseen.mpr hrcv⟩
  · simp only [if_neg hrcv]
    exact inv_post_of_main (hb.of_eq rfl rfl rfl rfl) rfl hrun hs hu fun ⟨_, h⟩ => hrcv (hseen.mp h)

/-- The exchange of a step's main frame from an empty record, given what comes after the frame. -/
theorem keepsInv_main {s : State} {p : Step} {f : List Byte} {t : FrameType} {k : Unit → State → Result} (h : s.Bounded)
    (ha : s.at (.main p)) (hl : f.length = mainLength p)
    (hk : ∀ u : State, u.Bounded → u.running → u.shape = frameShape (mainLength p) → u.unk = false → KeepsInv s (k () u)) :
    KeepsInv s (conclude (some t) (xchgFrame f s) k) := by
  obtain ⟨hrun, hrec, hunk⟩ := ha
  obtain ⟨h5, h9, -⟩ := mainLength_bounds p
  have hf : f ≠ [] := List.ne_nil_of_length_pos (by omega)
  have hroom : s.record.length + f.length < Config.recCap := by
    rw [hrec, hl, Config.recCap, List.length_nil]
    omega
  have hshape : (s.afterFrame f).shape = frameShape (mainLength p) := by
    rw [afterFrame_shape s hf, State.shape, hrec, hl]; rfl
  exact keepsInv_exchange h hf hroom (hk _ (bounded_afterFrame h f) (running_afterFrame hrun f) hshape hunk)

/-- The main frame of a step: then the test, or POST at once. -/
theorem run_main_keepsInv {s : State} (p : Step) (h : s.Bounded) (hq : s.seq = (Control.main p).seq)
    (ha : s.at (.main p)) : KeepsInv s ((Control.main p).run s) := by
  cases p with
  | part | zone =>
    exact keepsInv_main h ha rfl fun u hb hrun hs hu => sentinelTest_keepsInv (hb.of_eq rfl rfl rfl rfl) rfl hrun hs hu
  | lights =>
    exact keepsInv_main h ha rfl fun u hb hrun hs hu =>
      inv_post_of_main (hb.of_eq rfl rfl rfl rfl) rfl hrun hs hu (by simp [Step.hasQuery])
  | dt =>
    rw [Control.run, execStepDt]
    split
    · exact keepsInv_main h ha rfl fun u hb hrun hs hu =>
        inv_post_of_main (hb.of_eq rfl rfl rfl rfl) rfl hrun hs hu (by simp [Step.hasQuery])
    · rename_i hr
      exact ⟨rfl, hq, by simpa using hr⟩

/-! ## QUERY, POST and POLL -/

/-- In POST after the query frame too: the sentinel was seen. -/
theorem inv_post_of_query {u : State} {p : Step} (hb : u.Bounded) (hq : u.seq = mkSeq .cycle p .post) (hrun : u.running)
    (hs : u.shape = frameShape (mainLength p) ++ frameShape 12) (hu : u.unk = true) (hp : p.hasQuery = true)
    (hseen : u.sentinelSeen) : u.Inv :=
  hb.inv (c := .post p) hq ⟨hrun, by simp [hs, hu], by simp [hu, hp, hseen]⟩

/-- The query's entries come behind the step's, so the sentinel stays where it was seen (R115). -/
theorem run_query_keepsInv {s : State} (p : Step) (h : s.Bounded) (ha : s.at (.query p)) :
    KeepsInv s ((Control.query p).run s) := by
  have hlen := record_length_query ha
  obtain ⟨hrun, hp, hs, hunk, hseen⟩ := ha
  obtain ⟨h5, -, h7⟩ := mainLength_bounds p
  have h7 := h7 hp
  have hidx : s.par.sentIdx < s.record.length := by have := h.indices.2; omega
  have hf : buildQuery s.par ≠ [] := List.cons_ne_nil _ _
  have hroom : s.record.length + (buildQuery s.par).length < Config.recCap := by
    rw [hlen, show (buildQuery s.par).length = 12 from rfl, Config.recCap]
    omega
  have hshape : (s.afterFrame (buildQuery s.par)).shape = frameShape (mainLength p) ++ frameShape 12 := by
    rw [afterFrame_shape s hf, hs]; rfl
  have hseen' : (s.afterFrame (buildQuery s.par)).sentinelSeen := by
    simpa [State.sentinelSeen, State.afterFrame, List.getElem?_append_left hidx] using hseen
  exact keepsInv_exchange h hf hroom (inv_post_of_query ((bounded_afterFrame h (buildQuery s.par)).of_eq rfl rfl rfl rfl) rfl
    (running_afterFrame hrun (buildQuery s.par)) hshape hunk hp hseen')

/-- Where the block goes when a step is over (R106). -/
def Control.afterStep (p : Step) : Control :=
  match nextStep p with
  | some q => .main q
  | none => .idle

theorem leaveStep_seq (s : State) (p : Step) : (s.leaveStep p).seq = (Control.afterStep p).seq := by
  cases p <;> rfl

/-- POLLT keeps its value or starts again (R116). -/
theorem leaveStep_pollT (s : State) (p : Step) : (s.leaveStep p).pollT = s.pollT ∨ (s.leaveStep p).pollT = 0#22 := by
  cases p
  case dt => exact .inr rfl
  all_goals exact .inl rfl

theorem bounded_voidTest {s : State} (r : Byte) (h : s.Bounded) : (s.voidTest r).Bounded := by
  refine ⟨by simpa using h.pollT, ?_, by simpa using h.indices, by simpa using h.call⟩
  rw [State.voidTest_par]
  obtain hr | ⟨hl, l, hr⟩ := voidTest_resp s r <;> rw [hr]
  · exact h.resp
  · simpa using hl

theorem bounded_leaveStep {s : State} (p : Step) (h : s.Bounded) : (s.leaveStep p).Bounded := by
  refine ⟨?_, by simpa using h.resp, by simpa using h.indices, by simpa using h.call⟩
  obtain ht | ht := leaveStep_pollT s p <;> rw [ht]
  · exact h.pollT
  · exact Nat.zero_le _

/-- With the record cleared the block runs on to the next step or to Idle (R37, R116). -/
theorem at_afterStep {s : State} (p : Step) (hrun : s.running) (hr : s.record = []) (hu : s.unk = false) :
    s.at (Control.afterStep p) := by
  cases p <;> exact ⟨hrun, hr, hu⟩

theorem bounded_postStep {s : State} (p : Step) (r : Byte) (h : s.Bounded) : (s.postStep p r).Bounded :=
  have hclear : ({ ((s.voidTest r).emitStepDiag p).recClear with unk := false } : State).Bounded :=
    (bounded_voidTest r h).of_eq rfl rfl rfl rfl
  bounded_leaveStep p hclear

/-- POST clears the record and goes on (R37, R116). -/
theorem at_postStep {s : State} (p : Step) (r : Byte) (hrun : s.running) : (s.postStep p r).at (Control.afterStep p) := by
  obtain ⟨ht, hi, hc, hd⟩ := hrun
  refine at_afterStep p ⟨?_, ?_, ?_, ?_⟩ ?_ ?_ <;> simp [State.postStep, *]

theorem run_post_keepsInv {s : State} (p : Step) (h : s.Bounded) (ha : s.at (.post p)) :
    KeepsInv s ((Control.post p).run s) := by
  obtain ⟨hrun, hs, -⟩ := ha
  obtain ⟨e, he⟩ := getElem?_of_shape hs h.indices.1
  have hinv : (s.postStep p e.rcv).Inv :=
    (bounded_postStep p e.rcv h).inv (leaveStep_seq _ p) (at_postStep p e.rcv hrun)
  rw [Control.run, execPost, he]
  exact inv_returns hinv .nothing

/-- HALT in Idle leads into STOPPED (R108). -/
theorem inv_halt {s : State} (c : HaltCause) (h : s.Bounded) (ha : s.at .idle) : (s.halt c).Inv := by
  obtain ⟨⟨-, hi, hc, hd⟩, hr, hu⟩ := ha
  exact State.Bounded.inv (c := .stopped) (h.of_eq rfl rfl rfl rfl) rfl ⟨hr, hu, hi, hc, hd, by cases c <;> simp [haltCauseOf]⟩

/-- A cycle starts with the first step (R109). -/
theorem inv_cycleStart {s : State} (h : s.Bounded) (ha : s.at .idle) : s.cycleStart.Inv := by
  obtain ⟨⟨ht, hi, hc, hd⟩, hr, hu⟩ := ha
  refine State.Bounded.inv (c := .main .part) (h.of_eq ?_ ?_ ?_ ?_) ?_ ⟨⟨?_, ?_, ?_, ?_⟩, ?_, ?_⟩ <;>
    simp [Control.seq, *]

theorem run_idle_keepsInv {s : State} (h : s.Bounded) (hq : s.seq = Control.idle.seq) (ha : s.at .idle) :
    KeepsInv s (Control.idle.run s) := by
  have hinv : s.pollStep.Inv := by
    obtain hp | ⟨rest, -, hp⟩ | ⟨rest, -, hp⟩ | hp | ⟨hlt, hp⟩ := pollStep_cases s <;> rw [hp]
    · exact inv_halt _ h ha
    · exact inv_halt _ (h.of_eq rfl rfl rfl rfl) ha
    · exact inv_cycleStart (h.of_eq rfl rfl rfl rfl) ha
    · exact inv_cycleStart (h.of_eq rfl rfl rfl rfl) ha
    · have ht : s.pollT + 1#22 ≤ Config.tPoll := by
        rw [Config.tPoll] at hlt ⊢
        bv_omega
      exact State.Bounded.inv (c := .idle) ⟨ht, h.resp, h.indices, h.call⟩ hq ha
  exact inv_returns hinv .nothing

/-- Wherever the block stands, what it does there keeps the invariant. -/
theorem Control.run_keepsInv {s : State} {c : Control} (h : s.Bounded) (hq : s.seq = c.seq) (ha : s.at c) :
    KeepsInv s (c.run s) := by
  cases c with
  | idle => exact run_idle_keepsInv h hq ha
  | main p => exact run_main_keepsInv p h hq ha
  | query p => exact run_query_keepsInv p h ha
  | post p => exact run_post_keepsInv p h ha
  | stopped => exact h.inv (c := .stopped) hq ha
  | faulted => exact h.inv (c := .faulted) hq ha

/-! ## Every step -/

/-- A step from the invariant is reset, or what the block does where it stands. -/
theorem step_keepsInv {s : State} (h : s.Inv) : KeepsInv s.arrive (step s) := by
  have hb : s.arrive.Bounded := (inv_arrive h).bounded
  cases hr : s.arrive.resetI with
  | true =>
    have hs : step s = .next s.arrive.applyReset := by simp [step, hr]
    rw [hs]
    exact hb.applyReset_inv
  | false =>
    obtain ⟨c, hq, ha, hs⟩ := h.step_eq_run hr
    rw [hs]
    exact c.run_keepsInv hb hq ha

/-- Settles O47. -/
theorem invariantKeptByStep : Obligations.InvariantKeptByStep := by
  intro s t h hs
  have hk := step_keepsInv h
  rwa [hs] at hk

/-- Settles O48. -/
theorem invariantStepNeverFaults : Obligations.InvariantStepNeverFaults := by
  intro s h
  have hk := step_keepsInv h
  exact ⟨fun r hs => by rwa [hs] at hk, fun r hs => by rwa [hs] at hk⟩

/-- Settles O53: the block has stopped where TERM_CAUSE says so, and there a step changes only what the environment did. -/
theorem terminationHoldsUntilReset : Obligations.TerminationHoldsUntilReset := by
  intro s t h hr hn hs
  obtain ⟨-, -, hseq, -, -, hterm, hinfo, -⟩ := arrive_registers s
  obtain ⟨c, -, ha, hrun⟩ := h.step_eq_run hr
  have hstay : step s = .next s.arrive := by
    cases c with
    | idle | main | query | post =>
      obtain ⟨⟨ht, -⟩, -⟩ := ha
      exact absurd (hterm ▸ ht) hn
    | stopped | faulted => exact hrun
  obtain rfl : s.arrive = t := by rw [hstay] at hs; injection hs
  exact ⟨hterm, hinfo, hseq⟩

end Sys2Proof.Machine
end

section
/-!
PROOFS. The encodings read back (30_encoding.md R56 to R72): what the decoder accepts on the wire is an encoding, the packed
fields and the bits of an entry are where the rules put them, and the labels' and tokens' texts.
-/

namespace Sys2Proof

/-! ## Wire frames the decoder accepts -/

/-- A test of the decoder is passed exactly where what it compares is equal. -/
theorem guard_eq_ok_iff {α : Type} {a b : α} [Decidable (a ≠ b)] {e : DecodeError} {x : Except DecodeError Instr} {i : Instr} :
    (if a ≠ b then .error e else x) = .ok i ↔ a = b ∧ x = .ok i := by
  by_cases h : a = b <;> simp [h]

/-- The decoder's tests pin down every byte of a frame but the operand's: command, constants and checksum (R58 to R63), and for
the datetime frame the packing (R67). -/
theorem encode_of_decodeFrame {p : KftParams} {bs : List Byte} {i : Instr} (h : decodeFrame p bs = .ok i) :
    encode p i = .frame bs := by
  unfold decodeFrame at h
  split at h
  -- partition-status and keybus-query, which carry no checksum (R58, R62)
  case h_1 | h_5 =>
    simp only [guard_eq_ok_iff] at h
    obtain ⟨rfl, hk, h⟩ := h
    cases hk; cases h; rfl
  -- zone-status and zone-lights (R59, R60)
  case h_2 | h_3 =>
    simp only [guard_eq_ok_iff] at h
    obtain ⟨rfl, hk, rfl, h⟩ := h
    cases hk; cases h; rfl
  -- datetime (R61)
  case h_4 =>
    simp only [guard_eq_ok_iff] at h
    obtain ⟨rfl, hk, rfl, h⟩ := h
    split at h
    · rename_i ht
      obtain ⟨-, hp⟩ := Bool.and_eq_true_iff.mp ht
      cases hk; cases h
      rw [encode, dtFormat, of_decide_eq_true hp]; rfl
    · cases h
  case h_6 => cases h

/-! ## Slot sequences the decoder accepts -/

/-- One slot, or the exchange shape of at least five bytes (R55, R56). -/
theorem encode_of_decodeSlots {p : KftParams} {ss : List Slot} {i : Instr} (h : decodeSlots ss = .ok i) :
    encode p i = .slots ss := by
  unfold decodeSlots at h
  split at h
  case h_1 | h_2 => cases h; rfl
  case h_3 =>
    split at h
    · rename_i hbs
      split at h
      · cases h
        rw [eq_map_of_slotBytes hbs]; rfl
      · cases h
    · cases h
  case h_4 => cases h

/-- Settles O6: a byte sequence by the tests of the decoder, a slot sequence by its shape. -/
theorem acceptedWireWordsReencode : Obligations.AcceptedWireWordsReencode :=
  fun _ _ => ⟨fun _ h => encode_of_decodeFrame h, fun _ h => encode_of_decodeSlots h⟩

/-! ## Bit fields as numbers -/

/-- The upper of two fields counts in units of the lower one's size. -/
theorem toNat_append_eq {m n : Nat} (x : BitVec m) (y : BitVec n) : (x ++ y).toNat = 2 ^ n * x.toNat + y.toNat := by
  rw [BitVec.toNat_append, ← Nat.shiftLeft_add_eq_or_of_lt y.isLt, Nat.shiftLeft_eq, Nat.mul_comm]

/-- Reading the four bytes with the bit fields of R68 gives the date and time they were unpacked to. -/
theorem fields_of_unpackBits {b1 b2 b3 b4 : Byte} {t : DateTime} (h : unpackBits b1 b2 b3 b4 = t) :
    t.y = 10 * (b1.extractLsb' 4 4).toNat + (b1.extractLsb' 0 4).toNat ∧ t.mo = (b2.extractLsb' 2 4).toNat ∧
    t.d = 8 * (b2.extractLsb' 0 2).toNat + (b3.extractLsb' 5 3).toNat ∧ t.h = (b3.extractLsb' 0 5).toNat ∧
    t.mi = (b4.extractLsb' 2 6).toNat := by
  subst h
  exact ⟨rfl, rfl, toNat_append_eq _ _, rfl, rfl⟩

end Sys2Proof

namespace Sys2Proof.Machine

/-- BUILD_DT in range returns the datetime frame in its wire format (R61, R97). -/
theorem exec_buildDt_inRange {s : State} {t : DateTime} (h : t.inRange = true) :
    exec (.buildDt t) s = .next (s.returns (.frame (dtFormat s.par t))) := by
  rw [exec, execBuildDt, if_pos h, buildDt_eq _ h]

/-- Settles O23: BUILD_DT returns the packed bytes, and these unpack to the date and time. -/
theorem datetimePackingReversible : Obligations.DatetimePackingReversible := by
  intro s t h
  obtain ⟨b1, b2, b3, b4, hp, hu⟩ := unpackBits_packBits h
  have he : exec (.buildDt t) s =
      .next (s.returns (.frame (withSum [s.par.cmdDatetime, b1, b2, b3, b4, 0x00#8, 0x00#8]))) := by
    rw [exec_buildDt_inRange h, dtFormat, hp]; rfl
  exact ⟨s.par.cmdDatetime, b1, b2, b3, b4, _, he, fields_of_unpackBits hu⟩

/-- Settles O57: KIND, SENT and RCV are a one-bit and two eight-bit fields (R69). -/
theorem entryBits : Obligations.EntryBits := by
  refine ⟨fun sent rcv => ?_, fun sent rcv => ?_⟩
  · rw [Entry.bits, toNat_append_eq, toNat_append_eq, Nat.mul_add]; rfl
  · cases sent <;> cases rcv <;> rfl

/-! ## Labels and tokens -/

theorem labelText_of_entry {tbl : ButtonTable} {r : Byte} {text : String} (h : buttonEntry tbl r = some text) :
    labelText tbl { mapped := true, code := r } = text := by
  simp [labelText, h]

/-- The table's entry is the one R102 fixes, or at the other codes the parameter's (R40). -/
theorem buttonEntry_eq_some {tbl : ButtonTable} {r : Byte} {text : String}
    (h : r = 0x05#8 ∧ text = "1" ∨ r = 0x28#8 ∧ text = "*" ∨
      r ≠ 0x05#8 ∧ r ≠ 0x28#8 ∧ r ≠ 0x7E#8 ∧ tbl[r.toNat] = some text) : buttonEntry tbl r = some text := by
  obtain ⟨rfl, rfl⟩ | ⟨rfl, rfl⟩ | ⟨h1, h2, h3, ht⟩ := h
  · rfl
  · rfl
  · rw [buttonEntry, if_neg h1, if_neg h2, if_neg h3, ht]

/-- Below 16 a number has its upper-case hexadecimal digit. -/
theorem getElem?_hexDigits {n : Nat} (h : n < 16) : hexDigits[n]? = some (hexDigit n) := by
  have hl : n < hexDigits.length := h
  rw [hexDigit, List.getElem?_eq_getElem hl, Option.getD_some]

/-- Settles O29: a mapped label's text is the table's entry, an unmapped one's has the two digits of its code. -/
theorem labelTextIsTableOrCode : Obligations.LabelTextIsTableOrCode := by
  intro tbl r
  have hr : r.toNat < 256 := r.isLt
  exact ⟨fun _ h => labelText_of_entry h, fun _ h => labelText_of_entry (buttonEntry_eq_some h),
    Config.fallbackBefore r, Config.fallbackAfter r, hexDigit (r.toNat / 16), hexDigit (r.toNat % 16), rfl,
    getElem?_hexDigits (by omega), getElem?_hexDigits (by omega)⟩

theorem tokenKind_eq_shutdown (text : String) : tokenKind text = .shutdown ↔ text = "SHUTDOWN" := by
  unfold tokenKind
  split <;> simp [*]

/-- Settles O30: the channel holds the kind of the string written. -/
theorem onlyExactShutdownIsShutdown : Obligations.OnlyExactShutdownIsShutdown :=
  fun _ text => ⟨tokenKind text, rfl, tokenKind_eq_shutdown text⟩

end Sys2Proof.Machine
end

section
/-!
PROOFS. What a step selects (30_encoding.md R73, R75): the operation the fetched word decodes to, QUERY in every step of a cycle,
and a fault on a reserved encoding.
-/

namespace Sys2Proof.Machine

/-! ## The operation a step runs -/

/-- Where the fetched word decodes to an operation, the step runs it with the presented word used up. -/
theorem step_of_decode {s : State} {i : Instr} (hr : s.arrive.resetI = false) (hc : s.arrive.reservedCode = none)
    (hd : decode s.arrive.par s.arrive.fetch = .ok i) : step s = exec i s.arrive.fetched := by
  rw [step_eq hr hc, hd]

/-- Settles O3. -/
theorem stepRunsTheDecodedOperation : Obligations.StepRunsTheDecodedOperation :=
  fun _ _ hr hc hd => step_of_decode hr hc hd

/-- QUERY whose exchange completes: the query frame's entries, and POST of the same step (R115). -/
theorem execQuery_done {s : State} (p : Step) (h : s.linesComplete 485) :
    execQuery p s = .next (((s.afterFrame (queryFormat s.par)).returns .nothing).goto (mkSeq .cycle p .post)) := by
  have hf : queryFormat s.par ≠ [] := List.cons_ne_nil _ _
  rw [execQuery, buildQuery_eq, xchgFrame_done hf h, conclude_done]

/-- Settles O60: in a cycle SUB = QUERY decodes to QUERY of the step SEQ names, whichever it is. -/
theorem querySelectedInEveryStep : Obligations.QuerySelectedInEveryStep := by
  intro s p hr hc hres hq hl
  have hw : s.arrive.seq = mkSeq .cycle p .query := by cases p <;> exact hq
  have hd : decode s.arrive.par s.arrive.fetch = .ok (.query p) := by
    rw [fetch_seq hc, hw]; exact decodeSeq_cycle p .query
  rw [step_of_decode hr hres hd, fetched_of_none hc, exec, execQuery_done p hl]
  cases p <;> rfl

/-! ## A reserved value of SEQ -/

theorem noOperation_reservedSub (s : State) : noOperation s .reservedSub = .fault .reservedSeq := by
  unfold noOperation
  cases s.call <;> rfl

/-- Settles O7: in the register the code is found before anything is fetched, in a presented word by the decoder. -/
theorem reservedSubFaults : Obligations.ReservedSubFaults := by
  refine fun s hr => ⟨fun hq => step_reserved hr (reservedCode_seq hq), fun w hc hcall hw => ?_⟩
  have hd : decode s.arrive.par s.arrive.fetch = .error .reservedSub := by
    rw [State.fetch, hcall]; exact decodeSeq_reserved hw
  rw [step_eq hr hc, hd]
  exact noOperation_reservedSub _

/-! ## A reserved code of FAULT_INFO -/

/-- An operation over the lines faults outside an exchange, or by what comes after the lines. -/
theorem conclude_eq_fault {α : Type} {t : Option FrameType} {r : LineRes α} {k : α → State → Result} {f : Fault}
    (h : conclude t r k = .fault f) : f = .lineFaultOutsideExchange ∨ ∃ a u, k a u = .fault f := by
  cases r with
  | done a u => exact .inr ⟨a, u, h⟩
  | stop c u =>
    cases c with
    | reset => cases h
    | lineFault op =>
      cases t with
      | none => cases h; exact .inl rfl
      | some t => cases h

/-- An operation over the lines that ends in a next state once they are done. -/
theorem conclude_next_eq_fault {α : Type} {t : Option FrameType} {r : LineRes α} {k : α → State → State} {f : Fault}
    (h : conclude t r (fun a u => .next (k a u)) = .fault f) : f = .lineFaultOutsideExchange := by
  obtain h | ⟨a, u, h⟩ := conclude_eq_fault h
  · exact h
  · cases h

theorem sentinelTest_eq_fault {p : Step} {s : State} {f : Fault} (h : sentinelTest p s = .fault f) :
    f = .recordIndexAbsent := by
  unfold sentinelTest at h
  split at h
  · cases h; rfl
  · cases h

/-- A frame and the sentinel test after it. -/
theorem conclude_sentinelTest_eq_fault {α : Type} {t : Option FrameType} {r : LineRes α} {p : Step} {k : State → State}
    {f : Fault} (h : conclude t r (fun _ u => sentinelTest p (k u)) = .fault f) :
    f = .lineFaultOutsideExchange ∨ f = .recordIndexAbsent := by
  obtain h | ⟨_, u, h⟩ := conclude_eq_fault h
  · exact .inl h
  · exact .inr (sentinelTest_eq_fault h)

/-- The two faults an operation can end in (R30, R39, R75). -/
theorem exec_eq_fault {i : Instr} {s : State} {f : Fault} (h : exec i s = .fault f) :
    f = .recordIndexAbsent ∨ f = .lineFaultOutsideExchange := by
  cases i with
  | lineSetClk | lineSetData | lineGet | recvBit | xchgByte => exact .inr (conclude_next_eq_fault h)
  | stepPart =>
    rw [exec, execStepPart] at h
    exact (conclude_sentinelTest_eq_fault h).symm
  | stepZone =>
    rw [exec, execStepZone] at h
    exact (conclude_sentinelTest_eq_fault h).symm
  | stepLights =>
    rw [exec, execStepLights] at h
    exact .inr (conclude_next_eq_fault h)
  | query p =>
    rw [exec, execQuery] at h
    exact .inr (conclude_next_eq_fault h)
  | xchgFrame g =>
    rw [exec, execXchgFrame] at h
    split at h
    · cases h
    · exact .inr (conclude_next_eq_fault h)
  | stepDt =>
    rw [exec, execStepDt] at h
    split at h
    · exact .inr (conclude_next_eq_fault h)
    · cases h
  | post p =>
    rw [exec, execPost] at h
    split at h
    · cases h; exact .inl rfl
    · cases h
  | cksum g =>
    rw [exec, execCksum] at h
    split at h <;> cases h
  | buildDt t =>
    rw [exec, execBuildDt] at h
    split at h <;> cases h
  | buildPart | buildZone | buildLights | buildQuery | encStatus | decResp | poll | halt | fault => cases h

theorem noOperation_eq_fault {s : State} {e : DecodeError} {f : Fault} (h : noOperation s e = .fault f) :
    f = .reservedSeq := by
  unfold noOperation at h
  split at h <;> cases h <;> rfl

/-- Only a reserved code in the register ends a step in this fault. -/
theorem step_eq_reservedFaultInfo {s : State} (hr : s.arrive.resetI = false) :
    step s = .fault .reservedFaultInfo ↔ s.arrive.reservedCode = some .reservedFaultInfo := by
  refine ⟨fun h => ?_, step_reserved hr⟩
  cases hc : s.arrive.reservedCode with
  | some r =>
    rw [step_reserved hr hc] at h
    injection h with h
    rw [h]
  | none =>
    rw [step_eq hr hc] at h
    split at h
    · obtain h | h := exec_eq_fault h <;> cases h
    · cases noOperation_eq_fault h

theorem reservedCode_eq_reservedFaultInfo {s : State} (hq : s.seq.extractLsb' 4 2 ≠ 3#2) :
    s.reservedCode = some .reservedFaultInfo ↔ infoReserved s.afterFault s.faultInfo = true := by
  simp [State.reservedCode, hq]

/-- Settles O59. -/
theorem reservedFaultInfoFaults : Obligations.ReservedFaultInfoFaults := by
  intro s hr hq
  rw [step_eq_reservedFaultInfo hr, reservedCode_eq_reservedFaultInfo hq, infoReserved_iff, afterFault_iff]
  rfl

end Sys2Proof.Machine
end

section
/-!
PROOFS. The transceiver's operations (40_transceiver.md R80 to R88): complete, or ended by a failing primitive in an exchange of a
frame (60_exceptions.md R124, R126).
-/

namespace Sys2Proof.Machine

/-! ## Fault entry -/

theorem faultsTo_takeFault (s : State) (t : FrameType) (op : LineOp) : s.faultsTo (s.takeFault t op) t op := rfl

/-- FAULT_INFO names the primitive that failed (R30). -/
@[simp] theorem mkFaultInfo_op (t : FrameType) (n : Nat) (op : LineOp) :
    (mkFaultInfo t n op).extractLsb' 8 2 = opCode op := by
  have h : ∀ x : BitVec 5, (opCode op ++ x ++ frameCode t).extractLsb' 8 2 = opCode op := by
    cases t <;> cases op <;> decide
  exact h _

/-- An exchange one of whose primitives fails ends in fault entry from where it stood, in the frame it is part of. -/
theorem conclude_fault_partWay {α : Type} {ft : Option FrameType} {t : FrameType} {op : LineOp} {r : LineRes α}
    {k : α → State → Result} {s v : State} {es : List Entry} {ev : List Event} {n : Nat} (ht : ft = some t)
    (hr : r = .stop (.lineFault op) v) (hcut : Cut s v es ev n) :
    ∃ v u, conclude ft r k = .next u ∧ s.partWay v n es ev ∧ v.faultsTo u t op :=
  ⟨v, v.takeFault t op, by rw [ht, hr, conclude_fault], hcut.partWay, faultsTo_takeFault v t op⟩

/-! ## A single line primitive (R80 to R82) -/

/-- A single primitive that fails has used up its outcome and nothing else before fault entry (log 29). -/
theorem conclude_fault_answered {α : Type} {ft : Option FrameType} {t : FrameType} {op : LineOp} {r : LineRes α}
    {k : α → State → Result} {s : State} (ht : ft = some t) (hr : r = .stop (.lineFault op) s.answered) :
    ∃ u, conclude ft r k = .next u ∧ ({ s with lineI := s.lineI.drop 1 } : State).faultsTo u t op ∧
      u.faultInfo.extractLsb' 8 2 = opCode op :=
  ⟨s.answered.takeFault t op, by rw [ht, hr, conclude_fault], faultsTo_takeFault s.answered t op,
    mkFaultInfo_op t s.record.length op⟩

theorem lineSetClk_done {s : State} (v : Level) (h : s.outcomeAt 0 = .ok) :
    lineSetClk v s = .done () (s.answered.driveClk v) := by
  rw [lineSetClk, lineAnswer_ok h, LineRes.bind_done]

theorem lineSetData_done {s : State} (v : Level) (h : s.outcomeAt 0 = .ok) :
    lineSetData v s = .done () (s.answered.driveData v) := by
  rw [lineSetData, lineAnswer_ok h, LineRes.bind_done]

theorem lineGet_done {s : State} (h : s.outcomeAt 0 = .ok) : lineGet s = .done (s.sampleAt 0) s.answered.sampled := by
  rw [lineGet, lineAnswer_ok h, LineRes.bind_done]
  rfl

/-- Settles O9: one primitive, complete or failed. -/
theorem lineSetClkDrives : Obligations.LineSetClkDrives := by
  refine fun s v => ⟨fun h => ?_, fun t ht hf => conclude_fault_answered ht ?_⟩
  · rw [exec, execLineSetClk, lineSetClk_done v h]; rfl
  · rw [lineSetClk_stop v (by simp [hf]), hf]; rfl

/-- Settles O10, as O9 for the data line. -/
theorem lineSetDataDrives : Obligations.LineSetDataDrives := by
  refine fun s v => ⟨fun h => ?_, fun t ht hf => conclude_fault_answered ht ?_⟩
  · rw [exec, execLineSetData, lineSetData_done v h]; rfl
  · rw [lineSetData_stop v (by simp [hf]), hf]; rfl

/-- Settles O11: the answer to the primitive comes before the sample, and leaves it as it is. -/
theorem lineGetSamples : Obligations.LineGetSamples := by
  refine fun s => ⟨fun h => ?_, fun t ht hf => conclude_fault_answered ht ?_⟩
  · rw [exec, execLineGet, lineGet_done h]; rfl
  · rw [lineGet_stop (by simp [hf]), hf]; rfl

/-! ## Complete exchanges (R83, R84, R86) -/

theorem exec_recvBit_done {s : State} (h : s.linesComplete 5) :
    exec .recvBit s =
      .next ((s.exchanged 1 5 [.bit true (s.sampleAt 0)] (bitEvents (s.sampleAt 0))).returns (.bit (s.sampleAt 0))) := by
  rw [exec, execRecvBit, recvBit_done h, conclude_done]

theorem exec_xchgByte_done {s : State} (b : Byte) (h : s.linesComplete 40) :
    exec (.xchgByte b) s =
      .next ((s.exchanged 8 40 [.byte b (s.rcvFrom 0)] (byteEvents b (s.samplesFrom 0 8))).returns
        (.byte (s.rcvFrom 0))) := by
  rw [exec, execXchgByte, xchgByte_done b h, conclude_done]

theorem exec_xchgFrame_done {s : State} {f : List Byte} (h5 : 5 ≤ f.length) (h : s.linesComplete (40 * f.length + 5)) :
    exec (.xchgFrame f) s = .next ((s.afterFrame f).returns .nothing) := by
  rw [exec_xchgFrame h5, xchgFrame_done (ne_nil_of_five_le h5) h, conclude_done]

/-- Settles O15: what a complete exchange leaves has both lines high. -/
theorem completeExchangesEndHigh : Obligations.CompleteExchangesEndHigh :=
  fun _ => ⟨fun h => ⟨_, exec_recvBit_done h, rfl, rfl⟩, fun b h => ⟨_, exec_xchgByte_done b h, rfl, rfl⟩,
    fun _ h5 h => ⟨_, exec_xchgFrame_done h5 h, rfl, rfl⟩⟩

/-- Settles O12: a bit exchange completes, or is cut off at place `k`. -/
theorem recvBitExchangesABit : Obligations.RecvBitExchangesABit := by
  refine fun s => ⟨exec_recvBit_done, fun t k ht hk hc hf => ?_⟩
  obtain ⟨v, hv, hcut⟩ := recvBit_stop hk hc (by simp [hf])
  exact conclude_fault_partWay ht (by rw [hv, hf]; rfl) hcut

/-- Period `j` of a byte slot drives bit 7 - `j` and takes sample `j` (R84). -/
theorem byteEvents_samplesFrom (s : State) (b : Byte) :
    byteEvents b (s.samplesFrom 0 8) =
      (List.range 8).flatMap fun j => periodEvents (b.getLsbD (7 - j)) (s.sampleAt j) := by
  have hb : bitsOf b = (List.range 8).map fun j => b.getLsbD (7 - j) := rfl
  rw [byteEvents, hb, State.samplesFrom, List.zipWith_map, List.zipWith_self]
  simp [List.flatMap]

/-- Settles O13: a byte exchange completes, its received byte assembled from the eight samples, or is cut off at place `k`. -/
theorem xchgByteExchangesAByte : Obligations.XchgByteExchangesAByte := by
  refine fun s b => ⟨fun h => ⟨s.rcvFrom 0, ?_, fun k hk => ?_⟩, fun t k ht hk hc hf => ?_⟩
  · rw [exec_xchgByte_done b h, byteEvents_samplesFrom]; rfl
  · rw [rcvFrom_getLsbD s 0 k hk, Nat.zero_add]
  · obtain ⟨v, hv, hcut⟩ := xchgByte_stop b hk hc (by simp [hf])
    rw [byteEvents_samplesFrom] at hcut
    exact conclude_fault_partWay ht (by rw [hv, hf]; rfl) hcut

/-! ## The entries of a frame (R87) -/

theorem getElem?_restEntries (s : State) (bs : List Byte) (m i : Nat) :
    (restEntries s m bs)[i]? = bs[i]?.map fun b => .byte b (s.rcvFrom (m + 8 * i)) := by
  induction bs generalizing m i with
  | nil => rfl
  | cons b bs ih =>
    cases i with
    | zero => rfl
    | succ i =>
      rw [restEntries, List.getElem?_cons_succ, List.getElem?_cons_succ, ih, show m + 8 + 8 * i = m + 8 * (i + 1) by omega]

/-- Byte 0 is received with the first samples. -/
theorem frameEntries_first (s : State) {f : List Byte} {b : Byte} (h : f[0]? = some b) :
    (frameEntries s f)[0]? = some (.byte b (s.rcvFrom 0)) := by
  cases f with
  | nil => cases h
  | cons c cs => cases h; rfl

/-- The turnaround bit takes the sample after byte 0's eight. -/
theorem frameEntries_turnaround (s : State) {f : List Byte} (h : f ≠ []) :
    (frameEntries s f)[1]? = some (.bit true (s.sampleAt 8)) := by
  cases f with
  | nil => contradiction
  | cons b bs => rfl

/-- Byte `k` comes after the turnaround bit, and is received with its own samples. -/
theorem frameEntries_later (s : State) {f : List Byte} {b : Byte} {k : Nat} (hk : 1 ≤ k) (h : f[k]? = some b) :
    (frameEntries s f)[k + 1]? = some (.byte b (s.rcvFrom (8 * k + 1))) := by
  obtain ⟨i, rfl⟩ := Nat.exists_eq_add_of_le' hk
  cases f with
  | nil => cases h
  | cons c cs =>
    rw [List.getElem?_cons_succ] at h
    rw [frameEntries, List.getElem?_cons_succ, List.getElem?_cons_succ, getElem?_restEntries, h, Option.map_some,
      show 9 + 8 * i = 8 * (i + 1) + 1 by omega]

/-- Settles O14: the entries are `frameEntries`, each found by its index. -/
theorem xchgFrameAppendsEntries : Obligations.XchgFrameAppendsEntries :=
  fun s f h5 h => ⟨frameEntries s f, exec_xchgFrame_done h5 h, frameEntries_length s f (ne_nil_of_five_le h5),
    fun _ hb => frameEntries_first s hb, frameEntries_turnaround s (ne_nil_of_five_le h5),
    fun _ _ hk hb => frameEntries_later s hk hb⟩

/-! ## The data output at a sample (R85) -/

/-- From level `v` of the data output, every sample among the events is taken while it is high. -/
def SamplesHigh (v : Level) (es : List Event) : Prop :=
  ∀ before r after, es = before ++ .sample r :: after → dataLevel v before = true

theorem dataLevel_cons (v : Level) (e : Event) (es : List Event) :
    dataLevel v (e :: es) = dataLevel (dataLevel v [e]) es := by
  cases e <;> rfl

theorem samplesHigh_nil (v : Level) : SamplesHigh v [] := fun before _ _ h => by cases before <;> cases h

/-- A first event that is a sample finds the level itself; every later one finds what the first event left. -/
theorem samplesHigh_cons {v : Level} {e : Event} {es : List Event} :
    SamplesHigh v (e :: es) ↔ (∀ r, e = .sample r → v = true) ∧ SamplesHigh (dataLevel v [e]) es := by
  refine ⟨fun h => ⟨fun r he => h [] r es (by rw [he]; rfl), fun before r after hes => ?_⟩, fun ⟨he, hes⟩ => ?_⟩
  · rw [← dataLevel_cons]
    exact h (e :: before) r after (by rw [hes]; rfl)
  · intro before r after h
    cases before with
    | nil => injection h with h; exact he r h
    | cons x xs =>
      injection h with hx h
      rw [dataLevel_cons, ← hx]
      exact hes xs r after h

/-- A bit period begun with the data output high samples before it drives its bit, and leaves the output high again. -/
theorem samplesHigh_periodEvents {es : List Event} (v r : Level) (h : SamplesHigh true es) :
    SamplesHigh true (periodEvents v r ++ es) := by
  simpa [periodEvents, samplesHigh_cons, dataLevel] using h

/-- So does every period of a run of them, begun by the one before. -/
theorem samplesHigh_periods (vs rs : List Level) : SamplesHigh true (List.zipWith periodEvents vs rs).flatten := by
  induction vs generalizing rs with
  | nil => exact samplesHigh_nil true
  | cons v vs ih =>
    cases rs with
    | nil => exact samplesHigh_nil true
    | cons r rs => exact samplesHigh_periodEvents v r (ih rs)

/-- Settles O16: the trace appended is a run of bit periods. -/
theorem samplesAreTakenWithDataHigh : Obligations.SamplesAreTakenWithDataHigh := by
  intro s t b es before after r hd hc he ht hes
  rw [exec_xchgByte_done b hc] at he
  injection he with he
  have hev : es = byteEvents b (s.samplesFrom 0 8) := by
    rw [← he] at ht
    exact (List.append_cancel_left ht).symm
  rw [hd]
  exact samplesHigh_periods (bitsOf b) _ before r after (hev ▸ hes)

/-! ## Operands without a meaning -/

/-- Settles O26: the guards of XCHG_FRAME and CKSUM. -/
theorem operandsWithoutMeaningRefused : Obligations.OperandsWithoutMeaningRefused :=
  fun s => ⟨fun f hf => by rw [exec, execXchgFrame, if_pos hf], rfl⟩

end Sys2Proof.Machine
end

section
/-!
PROOFS. The codec (41_codec.md R92 to R98): each builder's frame byte by byte, the packed date and time as numbers, and the
refusal of a date or time out of range.
-/

namespace Sys2Proof

/-! ## The packed date and time as numbers (R97) -/

/-- Within the ranges of R96 no field of the packing of R67 overflows. -/
theorem exists_packBits_toNat {t : DateTime} (h : t.inRange = true) : ∃ b1 b2 b3 b4 : Byte,
    packBits t = [b1, b2, b3, b4] ∧
    b1.toNat = 16 * (t.y / 10) + t.y % 10 ∧ b2.toNat = 4 * t.mo + t.d / 8 ∧ b3.toNat = 32 * (t.d % 8) + t.h ∧
    b4.toNat = 4 * t.mi := by
  obtain ⟨hy, -, hmo, -, hd, hh, hmi⟩ := (Machine.inRange_iff t).mp h
  refine ⟨_, _, _, _, rfl, ?_, ?_, ?_, ?_⟩
  all_goals
    simp only [toNat_append_eq, BitVec.extractLsb'_toNat, BitVec.toNat_ofNat, Nat.shiftRight_eq_div_pow]
    omega

/-! ## The checksums of the formats (R63) -/

/-- The two zeros of a datetime frame (R61) add nothing. -/
theorem withSum_dt (c b1 b2 b3 b4 : Byte) : withSum [c, b1, b2, b3, b4, 0x00#8, 0x00#8] =
    [c, b1, b2, b3, b4, 0x00#8, 0x00#8, c + b1 + b2 + b3 + b4] := by
  simp [withSum, sumBytes, BitVec.add_assoc]

/-- The constants 27, 01, 91, C7 and 02 of a zone-status frame (R59) add up to 82 modulo 256. -/
theorem zoneFormat_bytes (st : Byte) :
    zoneFormat st = [0x27#8, st, 0x01#8, 0x91#8, 0xC7#8, 0x02#8, st + 0x82#8] := by
  have hsum : sumBytes [0x27#8, st, 0x01#8, 0x91#8, 0xC7#8, 0x02#8] = st + 0x82#8 := by
    simp only [sumBytes]
    bv_omega
  rw [← hsum]; rfl

/-- The constants 01 and 65 of a zone-lights frame (R60) add up to 66. -/
theorem lightsFormat_bytes (p : KftParams) (st : Byte) :
    lightsFormat p st = [p.cmdLights, st, 0x01#8, 0x65#8, 0x00#8, 0x00#8, 0x00#8, 0x00#8, p.cmdLights + st + 0x66#8] := by
  simp [lightsFormat, withSum, sumBytes, BitVec.add_assoc]

end Sys2Proof

namespace Sys2Proof.Machine

/-! ## The frame each operation returns -/

/-- CKSUM of at least one byte appends the wrapping sum (R63, R92). -/
theorem exec_cksum {s : State} {f : List Byte} (hf : f ≠ []) :
    exec (.cksum f) s = .next (s.returns (.frame (withSum f))) := by
  rw [exec, execCksum, if_neg (by simpa using hf), checksum_eq_withSum]

theorem exec_buildZone (s : State) (st : Byte) :
    exec (.buildZone st) s = .next (s.returns (.frame (zoneFormat st))) := by
  rw [exec, execBuildZone, buildZone_eq]

theorem exec_buildLights (s : State) (st : Byte) :
    exec (.buildLights st) s = .next (s.returns (.frame (lightsFormat s.par st))) := by
  rw [exec, execBuildLights, buildLights_eq]

/-- Settles O18: the wrapping sum is the exact sum reduced modulo 256. -/
theorem cksumAppendsSum : Obligations.CksumAppendsSum :=
  fun _ f hf => ⟨sumBytes f, exec_cksum hf, sumBytes_toNat f⟩

/-- Settles O19. -/
theorem buildPartFrame : Obligations.BuildPartFrame := fun _ _ => rfl

/-- Settles O20. -/
theorem buildZoneFrame : Obligations.BuildZoneFrame := fun s st => by
  rw [exec_buildZone, zoneFormat_bytes]; rfl

/-- Settles O21. -/
theorem buildLightsFrame : Obligations.BuildLightsFrame := fun s st => by
  rw [exec_buildLights, lightsFormat_bytes]; rfl

/-- Settles O22: BUILD_DT returns the wire format, whose packed bytes are the numbers. -/
theorem buildDtFrame : Obligations.BuildDtFrame := by
  intro s t h
  obtain ⟨b1, b2, b3, b4, hp, hnum⟩ := exists_packBits_toNat h
  have hf : dtFormat s.par t = [s.par.cmdDatetime, b1, b2, b3, b4, 0x00#8, 0x00#8,
      s.par.cmdDatetime + b1 + b2 + b3 + b4] := by
    rw [dtFormat, hp, ← withSum_dt]; rfl
  refine ⟨b1, b2, b3, b4, ?_, hnum⟩
  rw [exec_buildDt_inRange h, hf]; rfl

/-- Settles O24: the frame is made of parameters alone. -/
theorem buildQueryFrame : Obligations.BuildQueryFrame := fun _ => rfl

/-! ## A date or time out of range (R96) -/

theorem not_inRange_iff (t : DateTime) : ¬ t.inRange = true ↔
    99 < t.y ∨ t.mo < 1 ∨ 12 < t.mo ∨ t.d < 1 ∨ 31 < t.d ∨ 23 < t.h ∨ 59 < t.mi := by
  rw [inRange_iff]
  omega

theorem exec_buildDt_refused_iff {s : State} {t : DateTime} :
    exec (.buildDt t) s = .refused .dateTimeOutOfRange ↔ ¬ t.inRange = true := by
  rw [exec, execBuildDt]
  split <;> simp [*]

/-- An operation over the lines that ends in a next state once they are done refuses nothing. -/
theorem conclude_next_ne_refused {α : Type} {t : Option FrameType} {r : LineRes α} {k : α → State → State} {x : Refusal} :
    conclude t r (fun a u => .next (k a u)) ≠ .refused x := by
  intro h
  cases r with
  | done a u => cases h
  | stop c u =>
    cases c with
    | reset => cases h
    | lineFault op => cases t <;> cases h

/-- STEP_DT tests the clock before its frame exchange, and the exchange ends in no refusal (R113). -/
theorem exec_stepDt_refused_iff {s : State} :
    exec .stepDt s = .refused .dateTimeOutOfRange ↔ ¬ s.rtcI.inRange = true := by
  rw [exec, execStepDt]
  split
  · next hr => simp [hr, conclude_next_ne_refused]
  · next hr => simp [hr]

/-- Settles O25: both operations refuse exactly where the range test fails. -/
theorem datetimeOutOfRangeRefused : Obligations.DatetimeOutOfRangeRefused := fun _ t =>
  ⟨exec_buildDt_refused_iff.trans (not_inRange_iff t), exec_stepDt_refused_iff.trans (not_inRange_iff t)⟩

end Sys2Proof.Machine
end

section
/-!
PROOFS. ENC_STATUS and DEC_RESP (42_status_response.md R100 to R103): the status byte is FLAGS itself, and a label is mapped
where the table has an entry.
-/

namespace Sys2Proof.Machine

/-! ## The status byte (R100) -/

/-- ENC_STATUS returns the value of FLAGS (R101). -/
theorem exec_encStatus (s : State) : exec .encStatus s = .next (s.returns (.byte s.flags)) := by
  rw [exec, execEncStatus, statusByte_eq]

/-- Settles O27: each accessor reads its own bit of FLAGS. -/
theorem encStatusOwnsBits : Obligations.EncStatusOwnsBits := fun s =>
  ⟨s.flags, exec_encStatus s, rfl, rfl, rfl, rfl, rfl, rfl, rfl, rfl, rfl⟩

/-! ## The label of a received byte (R102, R103) -/

theorem labelOf_eq (tbl : ButtonTable) (r : Byte) :
    labelOf tbl r = { mapped := (buttonEntry tbl r).isSome, code := r } := by
  unfold labelOf
  split <;> simp [*]

theorem exec_decResp (r : Byte) (s : State) : exec (.decResp r) s =
    .next (s.returns (.label { mapped := (buttonEntry s.par.buttonTable r).isSome, code := r })) := by
  rw [exec, execDecResp, labelOf_eq]

/-- Beyond the codes of R102 the table is the parameter (R40). -/
theorem buttonEntry_eq_getElem {r : Byte} (tbl : ButtonTable) (h05 : r ≠ 0x05#8) (h28 : r ≠ 0x28#8) (h7E : r ≠ 0x7E#8) :
    buttonEntry tbl r = tbl[r.toNat] := by
  rw [buttonEntry, if_neg h05, if_neg h28, if_neg h7E]

/-- Where the table has an entry the label DEC_RESP returns is mapped, and its text is that entry. -/
theorem mapped_and_labelText_of_entry {tbl : ButtonTable} {r : Byte} {text : String} (h : buttonEntry tbl r = some text) :
    (buttonEntry tbl r).isSome = true ∧ labelText tbl { mapped := (buttonEntry tbl r).isSome, code := r } = text := by
  have hm : (buttonEntry tbl r).isSome = true := Option.isSome_of_eq_some h
  exact ⟨hm, hm ▸ labelText_of_entry h⟩

/-- Settles O28: the label is mapped when the looked-up entry is there, at the codes R102 fixes and at the others. -/
theorem decRespLooksUp : Obligations.DecRespLooksUp := by
  intro s r
  refine ⟨(buttonEntry s.par.buttonTable r).isSome, exec_decResp r s, Option.isSome_iff_exists, ?_, ?_, ?_, ?_⟩
  · rintro rfl
    exact mapped_and_labelText_of_entry rfl
  · rintro rfl
    exact mapped_and_labelText_of_entry rfl
  · rintro rfl
    rfl
  · intro h05 h28 h7E
    have he := buttonEntry_eq_getElem s.par.buttonTable h05 h28 h7E
    rw [← he]
    exact ⟨Option.isSome_iff_exists, fun _ ht => (mapped_and_labelText_of_entry ht).2⟩

end Sys2Proof.Machine
end

section
/-!
PROOFS. The sequencer's operations (43_sequencer.md R107 to R117): POLL and HALT, the operations that send a frame, and POST,
each by what it leaves behind.
-/

namespace Sys2Proof.Machine

/-! ## HALT and POLL (R107 to R109) -/

/-- Settles O33: HALT's own update, with SEQ written out. -/
theorem haltWritesCause : Obligations.HaltWritesCause := fun _ => ⟨rfl, rfl⟩

theorem pollStep_of_stop {s : State} (h : s.stopI = true) : s.pollStep = s.halt .stopSignal := by
  simp [State.pollStep, h]

theorem pollStep_of_shutdown {s : State} {rest : List Token} (hs : s.stopI = false) (hc : s.cmd = .shutdown :: rest) :
    s.pollStep = (s.popCmd .shutdown rest).halt .shutdownToken := by
  simp [State.pollStep, hs, hc]

theorem pollStep_of_other {s : State} {rest : List Token} (hs : s.stopI = false) (hc : s.cmd = .other :: rest) :
    s.pollStep = (s.popCmd .other rest).cycleStart := by
  simp [State.pollStep, hs, hc]

theorem pollStep_of_timeout {s : State} (hs : s.stopI = false) (hc : s.cmd = []) (ht : 3000000 ≤ s.pollT.toNat) :
    s.pollStep = (s.emit .timeout).cycleStart := by
  have ht : Config.tPoll ≤ s.pollT := ht
  simp [State.pollStep, hs, hc, ht]

theorem pollStep_of_waiting {s : State} (hs : s.stopI = false) (hc : s.cmd = []) (ht : s.pollT.toNat < 3000000) :
    s.pollStep = { s with pollT := s.pollT + 1#22 } := by
  have ht : ¬ Config.tPoll ≤ s.pollT := BitVec.not_le.mpr ht
  simp [State.pollStep, hs, hc, ht]

/-- Below `T_POLL` the timer does not wrap (R32). -/
theorem pollT_succ_toNat {x : BitVec 22} (h : x.toNat < 3000000) : (x + 1#22).toNat = x.toNat + 1 := by
  bv_omega

/-- What CYCLE_START does to FLAGS is what R109 leaves open, whatever value is returned. -/
theorem startsCycle_returns_cycleStart (s : State) (r : OpResult) : (s.returns r).startsCycle (s.cycleStart.returns r) := by
  cases hm : s.par.flagsMutable with
  | false => exact .inl ⟨hm, by rw [State.cycleStart, if_neg (by simp [hm])]; rfl⟩
  | true => exact .inr ⟨hm, Config.freeFlags s.freeCtr, s.freeCtr + 1, by rw [State.cycleStart, if_pos hm]; rfl⟩

/-- Settles O31, one test after the other. -/
theorem pollTestsInOrder : Obligations.PollTestsInOrder := by
  refine fun s => ⟨s.pollStep.returns .nothing, rfl, fun hs => ?_, fun rest hs hc => ?_, fun rest hs hc => ?_,
    fun hs hc ht => ?_, fun hs hc ht => ⟨s.pollT + 1#22, pollT_succ_toNat ht, ?_⟩⟩
  · rw [pollStep_of_stop hs]; rfl
  · rw [pollStep_of_shutdown hs hc, List.append_cons]; rfl
  · rw [pollStep_of_other hs hc]
    exact startsCycle_returns_cycleStart (s.popCmd .other rest) .nothing
  · rw [pollStep_of_timeout hs hc ht]
    exact startsCycle_returns_cycleStart (s.emit .timeout) .nothing
  · rw [pollStep_of_waiting hs hc ht]; rfl

/-! ## The operations that send a frame (R110 to R115) -/

/-- SENTINEL_TEST on an entry that is there (R114). -/
theorem sentinelTest_of_entry {s : State} {e : Entry} (p : Step) (h : s.record[s.par.sentIdx]? = some e) :
    sentinelTest p s = .next { s with
      unk := s.unk || decide (e.rcv = s.par.sentinel),
      seq := mkSeq .cycle p (if e.rcv = s.par.sentinel then .query else .post) } := by
  rw [sentinelTest, h]
  by_cases hr : e.rcv = s.par.sentinel <;> simp [hr, State.goto]

/-- A complete frame, then the test on the record with its entries appended. -/
theorem conclude_sentinelTest {s : State} {f : List Byte} {e : Entry} (ft : Option FrameType) (p : Step) (hf : f ≠ [])
    (hl : s.linesComplete (40 * f.length + 5)) (he : (s.record ++ frameEntries s f)[s.par.sentIdx]? = some e) :
    conclude ft (xchgFrame f s) (fun _ u => sentinelTest p (u.returns .nothing)) = .next { s.afterFrame f with
      ret := .nothing, unk := s.unk || decide (e.rcv = s.par.sentinel),
      seq := mkSeq .cycle p (if e.rcv = s.par.sentinel then .query else .post) } := by
  rw [xchgFrame_done hf hl, conclude_done]
  exact sentinelTest_of_entry p he

/-- From an empty record the entry 4 is the exchange of frame byte 3 (R87). -/
theorem rcv_of_entry_four {s : State} {f : List Byte} {e : Entry} {n : Nat} (hf : 4 ≤ f.length)
    (he : (s.record ++ frameEntries s f)[n]? = some e) (hr : s.record = []) (hn : n = 4) : e.rcv = s.rcvFrom 25 := by
  have hb : f[3]? = some f[3] := List.getElem?_eq_getElem (by omega)
  rw [hr, List.nil_append, hn, frameEntries_later s (by decide) hb] at he
  cases he
  rfl

/-- Settles O34. -/
theorem stepPartSendsAndTests : Obligations.StepPartSendsAndTests := by
  rintro s f e rfl hl he
  refine ⟨?_, rcv_of_entry_four (by simp) he⟩
  rw [exec, execStepPart]
  refine (conclude_sentinelTest _ .part (List.cons_ne_nil _ _) hl he).trans ?_
  split <;> rfl

/-- Settles O35. -/
theorem stepZoneSendsAndTests : Obligations.StepZoneSendsAndTests := by
  rintro s f e rfl hl he
  refine ⟨?_, rcv_of_entry_four (by simp) he⟩
  rw [exec, execStepZone, buildZone_eq, zoneFormat_bytes, conclude_sentinelTest _ .zone (List.cons_ne_nil _ _) hl he]
  split <;> rfl

/-- STEP_LIGHTS whose exchange completes (R112). -/
theorem execStepLights_done {s : State} (h : s.linesComplete 365) :
    execStepLights s = .next (((s.afterFrame (lightsFormat s.par (statusByte s.flags))).returns .nothing).goto
      (mkSeq .cycle .lights .post)) := by
  have hf : lightsFormat s.par (statusByte s.flags) ≠ [] := List.cons_ne_nil _ _
  rw [execStepLights, buildLights_eq, xchgFrame_done hf h, conclude_done]

/-- STEP_DT whose exchange completes, the wall clock in range (R113). -/
theorem execStepDt_done {s : State} (hr : s.rtcI.inRange = true) (h : s.linesComplete 325) :
    execStepDt s = .next (((s.afterFrame (dtFormat s.par s.rtcI)).returns .nothing).goto (mkSeq .cycle .dt .post)) := by
  have hf : dtFormat s.par s.rtcI ≠ [] := List.cons_ne_nil _ _
  rw [execStepDt, if_pos hr, buildDt_eq _ hr, xchgFrame_done hf h, conclude_done]

/-- Settles O36. -/
theorem stepLightsSends : Obligations.StepLightsSends := by
  intro s h
  rw [exec, execStepLights_done h, lightsFormat_bytes]
  rfl

/-- Settles O37: the frame is the wire format, whose packed bytes are the numbers. -/
theorem stepDtSends : Obligations.StepDtSends := by
  intro s hr h
  obtain ⟨b1, b2, b3, b4, hp, hnum⟩ := exists_packBits_toNat hr
  refine ⟨b1, b2, b3, b4, ?_, hnum⟩
  rw [exec, execStepDt_done hr h, dtFormat, hp, ← withSum_dt]
  rfl

/-- Settles O38. -/
theorem querySends : Obligations.QuerySends := by
  intro s p h
  rw [exec, execQuery_done p h]
  cases p <;> rfl

/-! ## POST (R116, R117) -/

/-- POST on an entry that is there. -/
theorem execPost_of_entry {s : State} {e : Entry} (p : Step) (h : s.record[s.par.respIdx]? = some e) :
    execPost p s = .next ((s.postStep p e.rcv).returns .nothing) := by
  rw [execPost, h]

/-- VOID_TEST: a label where the byte is not VOID and there is room, `RESP_OVF` where there is none (R19, R31). -/
theorem voidTest_eq (s : State) (r : Byte) : s.voidTest r = { s with
    resp := if r ≠ s.par.void ∧ s.resp.length < s.par.respCap then s.resp ++ [labelOf s.par.buttonTable r] else s.resp,
    respOvf := s.respOvf || (decide (r ≠ s.par.void) && decide (s.par.respCap ≤ s.resp.length)),
    trace := s.trace ++ if r ≠ s.par.void ∧ s.resp.length < s.par.respCap then
      [.resp (labelOf s.par.buttonTable r)] else [] } := by
  rw [State.voidTest]
  by_cases hv : r = s.par.void
  · simp [hv]
  · by_cases hr : s.resp.length < s.par.respCap
    · simp [State.emitResp, hv, hr]
    · simp [State.emitResp, hv, hr, Nat.le_of_not_lt hr]

/-- Settles O39: VOID_TEST, then the item and the clearing, the same in every step, then where the step leads. -/
theorem postInspectsAndClears : Obligations.PostInspectsAndClears := by
  intro s p e h
  rw [exec, execPost_of_entry p h, State.postStep, voidTest_eq]
  cases p <;> rfl

end Sys2Proof.Machine
end

section
/-!
PROOFS. Runs in which the environment does nothing (43_sequencer.md R105 to R107, R119): the wait in Idle, and one whole cycle.
-/

namespace Sys2Proof.Machine

/-! ## Steps and runs under a quiet environment -/

/-- Nothing is presented, scheduled or asserted, and FAULT_INFO holds no reserved encoding (R75). -/
structure State.Quiet (s : State) : Prop where
  call : s.call = none
  schedule : s.schedule = []
  resetI : s.resetI = false
  info : infoReserved (decide (s.termCause = .lineFault)) s.faultInfo = false

theorem control_sub_ne_reserved (c : Control) : c.seq.extractLsb' 4 2 ≠ 3#2 := by
  cases c with
  | idle | stopped | faulted => decide
  | main p | query p | post p => cases p <;> decide

/-- Outside FAULTED only TERM_CAUSE says that a line fault has struck. -/
theorem afterFault_control {s : State} {c : Control} (hq : s.seq = c.seq) (hc : c ≠ .faulted) :
    s.afterFault = decide (s.termCause = .lineFault) := by
  simp [State.afterFault, hq, seqPhase_control, hc]

theorem State.Quiet.of_reservedCode {s : State} {c : Control} (hq : s.seq = c.seq) (hf : c ≠ .faulted)
    (hc : s.call = none) (hs : s.schedule = []) (hr : s.resetI = false) (h : s.reservedCode = none) : s.Quiet :=
  ⟨hc, hs, hr, afterFault_control hq hf ▸ (reservedCode_eq_none.mp h).2⟩

/-- Under a quiet environment a step does what the block does where it stands. -/
theorem State.Quiet.step_eq_run {s : State} {c : Control} (h : s.Quiet) (hq : s.seq = c.seq) (hf : c ≠ .faulted) :
    step s = c.run s := by
  have ha : s.arrive = s := arrive_nil h.schedule
  have hres : s.reservedCode = none :=
    reservedCode_eq_none.mpr ⟨hq ▸ control_sub_ne_reserved c, afterFault_control hq hf ▸ h.info⟩
  rw [step_eq (by rw [ha, h.resetI]) (by rw [ha, hres]), ha, fetch_seq h.call, fetched_of_none h.call, decode, hq]
  exact c.run_eq h.call

theorem run_one {s t : State} (h : step s = .next t) : core.run 1 s = .next t := by
  rw [run_succ 0 h, run_zero]

theorem run_trans {m n : Nat} {s t u : State} (h : core.run m s = .next t) (k : core.run n t = .next u) :
    core.run (m + n) s = .next u := by
  rw [run_add m n h, k]

/-! ## The wait in Idle (R107, R131) -/

/-- The block is in Idle with nothing to read. -/
structure State.Waiting (s : State) : Prop extends s.Quiet where
  seq : s.seq = Control.idle.seq
  stopI : s.stopI = false
  cmd : s.cmd = []

theorem State.Waiting.step_eq {s : State} (h : s.Waiting) : step s = .next (s.pollStep.returns .nothing) :=
  h.toQuiet.step_eq_run h.seq nofun

/-- Idle after one more instant of waiting. -/
def State.waited (s : State) : State := { s with pollT := s.pollT + 1#22, ret := .nothing }

theorem State.Waiting.step_waited {s : State} (h : s.Waiting) (ht : s.pollT.toNat < 3000000) :
    step s = .next s.waited := by
  rw [h.step_eq, pollStep_of_waiting h.stopI h.cmd ht]; rfl

theorem State.Waiting.waited {s : State} (h : s.Waiting) : s.waited.Waiting :=
  ⟨⟨h.call, h.schedule, h.resetI, h.info⟩, h.seq, h.stopI, h.cmd⟩

/-- `n` waiting steps leave POLLT `n` higher, up to `T_POLL`. -/
theorem State.Waiting.run {n : Nat} : ∀ {s : State}, s.Waiting → s.pollT.toNat + n ≤ 3000000 →
    ∃ t : State, core.run n s = .next t ∧ t.Waiting ∧ t.pollT.toNat = s.pollT.toNat + n ∧ t.trace = s.trace := by
  induction n with
  | zero => exact fun h _ => ⟨_, run_zero _, h, rfl, rfl⟩
  | succ n ih =>
    intro s h hn
    have ht : s.pollT.toNat < 3000000 := by omega
    have hw : s.waited.pollT.toNat = s.pollT.toNat + 1 := pollT_succ_toNat ht
    obtain ⟨t, hrun, hwait, hpoll, htrace⟩ := ih h.waited (by omega)
    exact ⟨t, by rw [run_succ n (h.step_waited ht), hrun], hwait, by omega, htrace⟩

/-- Settles O32: the wait, then the step that finds POLLT at `T_POLL`. -/
theorem idleWaitRunsOut : Obligations.IdleWaitRunsOut := by
  intro s hq hc hsch hr hstop hcmd hres hle
  have h : s.Waiting := ⟨.of_reservedCode (c := .idle) hq nofun hc hsch hr hres, hq, hstop, hcmd⟩
  refine ⟨fun n hn => ?_, ?_⟩
  · obtain ⟨t, hrun, hw, hpoll, htrace⟩ := h.run hn
    exact ⟨t, hrun, hpoll, hw.seq, htrace⟩
  · obtain ⟨t, hrun, hw, hpoll, htrace⟩ := h.run (n := 3000000 - s.pollT.toNat) (by omega)
    have hstart : step t = .next (((t.emit .timeout).cycleStart).returns .nothing) := by
      rw [hw.step_eq, pollStep_of_timeout hw.stopI hw.cmd (by omega)]
    refine ⟨_, run_trans hrun (run_one hstart), ?_, ?_⟩
    · rw [State.returns_seq, State.cycleStart_seq]; rfl
    · rw [State.returns_trace, State.cycleStart_trace, State.emit_trace, htrace]

/-! ## A whole cycle (R106, R119) -/

/-- What a cycle needs besides quiet: line primitives that complete, both indices among the six entries of the shortest frame
(R39), and a wall clock in range (R96). -/
structure State.Supplied (s : State) : Prop extends s.Quiet where
  lines : ∀ k, s.outcomeAt k = .ok
  indices : s.par.respIdx < 6 ∧ s.par.sentIdx < 6
  rtcI : s.rtcI.inRange = true

/-- `t` has everything of `s` that the operations of a cycle leave alone, and line outcomes from further on. -/
structure CycleKeeps (s t : State) : Prop where
  par : t.par = s.par
  flags : t.flags = s.flags
  cmd : t.cmd = s.cmd
  rtcI : t.rtcI = s.rtcI
  call : t.call = s.call
  schedule : t.schedule = s.schedule
  resetI : t.resetI = s.resetI
  termCause : t.termCause = s.termCause
  faultInfo : t.faultInfo = s.faultInfo
  lineI : ∃ n, t.lineI = s.lineI.drop n

theorem CycleKeeps.refl (s : State) : CycleKeeps s s := ⟨rfl, rfl, rfl, rfl, rfl, rfl, rfl, rfl, rfl, 0, rfl⟩

theorem CycleKeeps.trans {s t u : State} (h : CycleKeeps s t) (k : CycleKeeps t u) : CycleKeeps s u := by
  obtain ⟨m, hm⟩ := h.lineI
  obtain ⟨n, hn⟩ := k.lineI
  exact ⟨k.par.trans h.par, k.flags.trans h.flags, k.cmd.trans h.cmd, k.rtcI.trans h.rtcI, k.call.trans h.call,
    k.schedule.trans h.schedule, k.resetI.trans h.resetI, k.termCause.trans h.termCause, k.faultInfo.trans h.faultInfo,
    m + n, by rw [hn, hm, List.drop_drop]⟩

theorem State.Supplied.of_keeps {s t : State} (h : s.Supplied) (k : CycleKeeps s t) : t.Supplied := by
  obtain ⟨n, hn⟩ := k.lineI
  have hinfo : infoReserved (decide (t.termCause = .lineFault)) t.faultInfo = false := by
    rw [k.termCause, k.faultInfo, h.info]
  exact ⟨⟨k.call.trans h.call, k.schedule.trans h.schedule, k.resetI.trans h.resetI, hinfo⟩,
    fun j => (outcomeAt_drop hn j).trans (h.lines _), k.par ▸ h.indices, k.rtcI ▸ h.rtcI⟩

theorem State.Supplied.linesComplete {s : State} (h : s.Supplied) (n : Nat) : s.linesComplete n := fun k _ => h.lines k

/-- The block stands at `c` between two steps of a cycle, or in Idle: the record is empty and UNK 0 (R28, R37). -/
structure State.Fresh (s : State) (c : Control) : Prop extends s.Supplied where
  seq : s.seq = c.seq
  record : s.record = []
  unk : s.unk = false

/-! ### What was sent in the slots of the record -/

theorem restEntries_slot (s : State) (k : Nat) (bs : List Byte) : (restEntries s k bs).map Entry.slot = bs.map .byte := by
  induction bs generalizing k with
  | nil => rfl
  | cons b bs ih => simp [restEntries, Entry.slot, ih]

/-- The slots of a frame's entries are the exchange shape of the frame (R56, R87). -/
theorem frameEntries_slot (s : State) (f : List Byte) : (frameEntries s f).map Entry.slot = frameSlots f := by
  cases f with
  | nil => rfl
  | cons b bs => simp [frameEntries, frameSlots, Entry.slot, restEntries_slot]

/-! ### The three operations of a step -/

theorem mainFormat_length (s : State) (p : Step) : (mainFormat s p).length = mainLength p := by
  cases p <;> rfl

theorem mainFormat_ne_nil (s : State) (p : Step) : mainFormat s p ≠ [] := by
  cases p <;> exact List.cons_ne_nil _ _

/-- The record after a step's main frame from an empty record reaches past every index below 6 (R39). -/
theorem lt_length_mainEntries (s : State) (p : Step) {n : Nat} (h : n < 6) :
    n < (frameEntries s (mainFormat s p)).length := by
  obtain ⟨h5, -⟩ := mainLength_bounds p
  rw [frameEntries_length s _ (mainFormat_ne_nil s p), mainFormat_length]
  omega

/-- `s` after a step's main frame; UNK is set where the test finds the sentinel, and then the query follows (R114). -/
def State.mainSent (s : State) (p : Step) (x : Bool) : State :=
  { s.afterFrame (mainFormat s p) with
    ret := .nothing, unk := s.unk || x, seq := mkSeq .cycle p (if x then .query else .post) }

/-- `s` after the query frame of step `p` (R115). -/
def State.querySent (s : State) (p : Step) : State :=
  { s.afterFrame (queryFormat s.par) with ret := .nothing, seq := mkSeq .cycle p .post }

theorem keeps_mainSent (s : State) (p : Step) (x : Bool) : CycleKeeps s (s.mainSent p x) :=
  ⟨rfl, rfl, rfl, rfl, rfl, rfl, rfl, rfl, rfl, _, rfl⟩

theorem keeps_querySent (s : State) (p : Step) : CycleKeeps s (s.querySent p) :=
  ⟨rfl, rfl, rfl, rfl, rfl, rfl, rfl, rfl, rfl, _, rfl⟩

theorem keeps_postStep (s : State) (p : Step) (r : Byte) : CycleKeeps s ((s.postStep p r).returns .nothing) := by
  refine ⟨?_, ?_, ?_, ?_, ?_, ?_, ?_, ?_, ?_, 0, ?_⟩ <;> simp [State.postStep]

/-- Where the main frame alone is on record, SENTINEL_TEST reads the frame's own entry and finds the sentinel or not. -/
theorem exists_mainSent_of_test {s : State} {p : Step} {ft : Option FrameType} (h : s.Fresh (.main p)) :
    ∃ x : Bool, conclude ft (xchgFrame (mainFormat s p) s) (fun _ u => sentinelTest p (u.returns .nothing)) =
        .next (s.mainSent p x) ∧
      (x = true ↔ ((frameEntries s (mainFormat s p))[s.par.sentIdx]?).map Entry.rcv = some s.par.sentinel) := by
  have he := List.getElem?_eq_getElem (lt_length_mainEntries s p h.indices.2)
  generalize (frameEntries s (mainFormat s p))[s.par.sentIdx]'_ = e at he
  refine ⟨decide (e.rcv = s.par.sentinel), ?_, by simp [he]⟩
  rw [conclude_sentinelTest ft p (mainFormat_ne_nil s p) (h.linesComplete _) (by rw [h.record, List.nil_append, he])]
  simp [State.mainSent]

/-- MAIN: the step's frame is sent, and a query follows exactly where there is a test and it finds the sentinel (R110 to R114). -/
theorem exists_step_mainSent {s : State} {p : Step} (h : s.Fresh (.main p)) :
    ∃ x : Bool, step s = .next (s.mainSent p x) ∧
      (x = true ↔ p.hasQuery = true ∧
        ((frameEntries s (mainFormat s p))[s.par.sentIdx]?).map Entry.rcv = some s.par.sentinel) := by
  rw [h.toQuiet.step_eq_run h.seq nofun]
  cases p with
  | part =>
    obtain ⟨x, hx, hseen⟩ := exists_mainSent_of_test (ft := some .part) h
    exact ⟨x, hx, by simp [hseen, Step.hasQuery]⟩
  | zone =>
    obtain ⟨x, hx, hseen⟩ := exists_mainSent_of_test (ft := some .zone) h
    exact ⟨x, by rw [Control.run, execStepZone, buildZone_eq]; exact hx, by simp [hseen, Step.hasQuery]⟩
  | lights =>
    refine ⟨false, ?_, by simp [Step.hasQuery]⟩
    rw [Control.run, execStepLights_done (h.linesComplete _), State.mainSent, Bool.or_false]; rfl
  | dt =>
    refine ⟨false, ?_, by simp [Step.hasQuery]⟩
    rw [Control.run, execStepDt_done h.rtcI (h.linesComplete _), State.mainSent, Bool.or_false]; rfl

/-- QUERY: its frame is sent and POST comes next (R115). -/
theorem step_querySent {s : State} {p : Step} (h : s.Supplied) (hq : s.seq = (Control.query p).seq) :
    step s = .next (s.querySent p) := by
  rw [h.toQuiet.step_eq_run hq nofun, Control.run, execQuery_done p (h.linesComplete _)]
  rfl

/-- POST, where the entry it reads is there (R116). -/
theorem step_postStep {s : State} {p : Step} {e : Entry} (h : s.Quiet) (hq : s.seq = (Control.post p).seq)
    (he : s.record[s.par.respIdx]? = some e) : step s = .next ((s.postStep p e.rcv).returns .nothing) := by
  rw [h.step_eq_run hq nofun, Control.run, execPost_of_entry p he]

/-! ### One step of a cycle -/

/-- `v` is `s` when the frames of step `p` are sent and POST comes next; `q` are the entries of the query, sent where `x`. -/
structure FramesSent (s v : State) (p : Step) (q : List Entry) (x : Bool) : Prop extends CycleKeeps s v where
  run : core.run (1 + x.toNat) s = .next v
  seq : v.seq = (Control.post p).seq
  unk : v.unk = x
  diag : v.diag = s.diag
  record : v.record = frameEntries s (mainFormat s p) ++ q
  slots : q.map Entry.slot = if x then frameSlots (queryFormat s.par) else []
  sentinel : x = true ↔ p.hasQuery = true ∧
    ((frameEntries s (mainFormat s p))[s.par.sentIdx]?).map Entry.rcv = some s.par.sentinel

theorem exists_framesSent {s : State} {p : Step} (h : s.Fresh (.main p)) : ∃ v q x, FramesSent s v p q x := by
  obtain ⟨x, hs, hx⟩ := exists_step_mainSent h
  have hr : (s.mainSent p x).record = frameEntries s (mainFormat s p) := congrArg (· ++ _) h.record
  have hu : (s.mainSent p x).unk = x := by simp [State.mainSent, h.unk]
  have hk := keeps_mainSent s p x
  cases x with
  | false => exact ⟨s.mainSent p false, [], false, hk, run_one hs, rfl, hu, rfl, by rw [hr, List.append_nil], rfl, hx⟩
  | true =>
    have hq : step (s.mainSent p true) = .next ((s.mainSent p true).querySent p) :=
      step_querySent (h.toSupplied.of_keeps hk) rfl
    exact ⟨(s.mainSent p true).querySent p, frameEntries (s.mainSent p true) (queryFormat s.par), true,
      hk.trans (keeps_querySent _ p), run_trans (run_one hs) (run_one hq), rfl, hu, rfl,
      congrArg (· ++ _) hr, frameEntries_slot _ _, hx⟩

/-- `t` is `s` when step `p` of a cycle is over; the step's diagnostics item has the record `r` and the unknown flag `x`. -/
structure StepDone (s t : State) (p : Step) (r : List Entry) (x : Bool) : Prop extends CycleKeeps s t where
  run : core.run (2 + x.toNat) s = .next t
  seq : t.seq = (Control.afterStep p).seq
  record : t.record = []
  unk : t.unk = false
  pollT : p = .dt → t.pollT = 0#22
  diag : t.diag = s.diag ++ [.stepDiag p r x]
  slots : r.map Entry.slot = frameSlots (mainFormat s p) ++ if x then frameSlots (queryFormat s.par) else []
  sentinel : x = true ↔ p.hasQuery = true ∧ (r[s.par.sentIdx]?).map Entry.rcv = some s.par.sentinel

theorem StepDone.fresh {s t : State} {p : Step} {c : Control} {r : List Entry} {x : Bool} (d : StepDone s t p r x)
    (h : s.Fresh c) : t.Fresh (Control.afterStep p) :=
  ⟨h.toSupplied.of_keeps d.toCycleKeeps, d.seq, d.record, d.unk⟩

/-- A step of a cycle sends its frames and delivers them (R106). -/
theorem exists_stepDone {s : State} {p : Step} (h : s.Fresh (.main p)) : ∃ t r x, StepDone s t p r x := by
  obtain ⟨v, q, x, hv⟩ := exists_framesSent h
  have hlong {n : Nat} (hn : n < 6) : v.record[n]? = (frameEntries s (mainFormat s p))[n]? := by
    rw [hv.record, List.getElem?_append_left (lt_length_mainEntries s p hn)]
  obtain ⟨e, he⟩ : ∃ e, v.record[v.par.respIdx]? = some e := by
    rw [hv.par, hlong h.indices.1]
    exact ⟨_, List.getElem?_eq_getElem (lt_length_mainEntries s p h.indices.1)⟩
  have hpost := step_postStep (h.toSupplied.of_keeps hv.toCycleKeeps).toQuiet hv.seq he
  refine ⟨(v.postStep p e.rcv).returns .nothing, v.record, x, hv.toCycleKeeps.trans (keeps_postStep v p e.rcv), ?_,
    leaveStep_seq _ p, ?_, ?_, ?_, ?_, ?_, ?_⟩
  · rw [show 2 + x.toNat = 1 + x.toNat + 1 by omega]
    exact run_trans hv.run (run_one hpost)
  · simp [State.postStep]
  · simp [State.postStep]
  · rintro rfl
    rfl
  · simp [State.postStep, hv.unk, hv.diag]
  · rw [hv.record, List.map_append, frameEntries_slot, hv.slots]
  · rw [hlong h.indices.2, hv.sentinel]

/-- The frame of a step is the same wherever in the cycle it is built. -/
theorem CycleKeeps.mainFormat_eq {b s : State} (k : CycleKeeps b s) (p : Step) : mainFormat s p = mainFormat b p := by
  cases p <;> simp only [mainFormat, k.par, k.flags, k.rtcI]

/-- What the item of a step holds, by the state `b` the cycle started in. -/
theorem StepDone.item {b s t : State} {p : Step} {r : List Entry} {x : Bool} (d : StepDone s t p r x)
    (k : CycleKeeps b s) :
    (r.map Entry.slot = frameSlots (mainFormat b p) ++ if x then frameSlots (queryFormat b.par) else []) ∧
    (x = true ↔ p.hasQuery = true ∧ (r[b.par.sentIdx]?).map Entry.rcv = some b.par.sentinel) := by
  rw [← k.mainFormat_eq, ← k.par]
  exact ⟨d.slots, d.sentinel⟩

/-- A step without a sentinel test sends no query (R119). -/
theorem StepDone.eq_false {s t : State} {p : Step} {r : List Entry} {x : Bool} (d : StepDone s t p r x)
    (hp : p.hasQuery = false) : x = false := by
  simpa [hp] using d.sentinel

/-! ### The cycle -/

/-- Four steps on end, the state that each leaves the next one's, from the state the cycle started in. -/
theorem exists_fourSteps {b : State} (h : b.Fresh (.main .part)) : ∃ t1 t2 t3 t4 r1 r2 r3 r4 u1 u2,
    StepDone b t1 .part r1 u1 ∧ StepDone t1 t2 .zone r2 u2 ∧ StepDone t2 t3 .lights r3 false ∧
      StepDone t3 t4 .dt r4 false := by
  obtain ⟨t1, r1, u1, d1⟩ := exists_stepDone h
  have h1 : t1.Fresh (.main .zone) := d1.fresh h
  obtain ⟨t2, r2, u2, d2⟩ := exists_stepDone h1
  have h2 : t2.Fresh (.main .lights) := d2.fresh h1
  obtain ⟨t3, r3, u3, d3⟩ := exists_stepDone h2
  obtain rfl := d3.eq_false rfl
  have h3 : t3.Fresh (.main .dt) := d3.fresh h2
  obtain ⟨t4, r4, u4, d4⟩ := exists_stepDone h3
  obtain rfl := d4.eq_false rfl
  exact ⟨t1, t2, t3, t4, r1, r2, r3, r4, u1, u2, d1, d2, d3, d4⟩

/-- `s` when a token at the head of the channel has started a cycle (R107, R109). -/
def State.started (s : State) (rest : List Token) : State := ((s.popCmd .other rest).cycleStart).returns .nothing

theorem State.Fresh.started {s : State} (h : s.Fresh .idle) (rest : List Token) :
    (s.started rest).Fresh (.main .part) := by
  refine ⟨⟨⟨?_, ?_, ?_, ?_⟩, fun k => ?_, ?_, ?_⟩, ?_, ?_, ?_⟩
  · simpa [State.started] using h.call
  · simpa [State.started] using h.schedule
  · simpa [State.started] using h.resetI
  · simpa [State.started] using h.info
  · rw [outcomeAt_congr (s := s) (by simp [State.started]), h.lines k]
  · simpa [State.started] using h.indices
  · simpa [State.started] using h.rtcI
  · simp [State.started, Control.seq]
  · simpa [State.started] using h.record
  · simpa [State.started] using h.unk

/-- Settles O41: POLL starts the cycle, and the four steps follow one another. -/
theorem cycleRunsFourSteps : Obligations.CycleRunsFourSteps := by
  intro s rest hq hc hrec hunk hsch hr hl hstop hcmd hrtc hres hresp hsent
  have hidle : s.Fresh .idle :=
    ⟨⟨.of_reservedCode (c := .idle) hq nofun hc hsch hr hres, hl, ⟨hresp, hsent⟩, hrtc⟩, hq, hrec, hunk⟩
  have hstart : step s = .next (s.started rest) := by
    rw [hidle.toQuiet.step_eq_run hidle.seq nofun, Control.run, execPoll, pollStep_of_other hstop hcmd]; rfl
  obtain ⟨t1, t2, t3, t, r1, r2, r3, r4, u1, u2, d1, d2, d3, d4⟩ := exists_fourSteps (hidle.started rest)
  have k1 := d1.toCycleKeeps
  have k2 := k1.trans d2.toCycleKeeps
  have k3 := k2.trans d3.toCycleKeeps
  have k4 := k3.trans d4.toCycleKeeps
  have hpar : (s.started rest).par = s.par := by simp [State.started]
  have hclock : (s.started rest).rtcI = s.rtcI := by simp [State.started]
  have hdiag : (s.started rest).diag = s.diag := by simp [State.started]
  have hflags (hm : s.par.flagsMutable = false) : (s.started rest).flags = s.flags := by simp [State.started, hm]
  obtain ⟨i1, q1⟩ := d1.item (.refl _)
  obtain ⟨i2, q2⟩ := d2.item k1
  obtain ⟨i3, -⟩ := d3.item k2
  obtain ⟨i4, -⟩ := d4.item k3
  simp only [mainFormat, hpar, hclock, ← k4.flags, Bool.false_eq_true, if_false, List.append_nil] at i1 i2 i3 i4
  simp only [Step.hasQuery, hpar, true_and] at q1 q2
  refine ⟨t, r1, r2, r3, r4, u1, u2, ?_, d4.seq, d4.record, d4.unk, d4.pollT rfl, ?_, ?_, ?_,
    i1, i2, i3, i4, q1, q2⟩
  · rw [show 9 + u1.toNat + u2.toNat = 1 + (2 + u1.toNat) + (2 + u2.toNat) + 2 + 2 by omega]
    exact run_trans (run_trans (run_trans (run_trans (run_one hstart) d1.run) d2.run) d3.run) d4.run
  · rw [k4.cmd, State.started, State.returns_cmd, State.cycleStart_cmd, State.popCmd_cmd]
  · exact fun hm => k4.flags.trans (hflags hm)
  · rw [d4.diag, d3.diag, d2.diag, d1.diag, hdiag]; simp

end Sys2Proof.Machine
end

section
/-!
PROOFS. Which operations read the command channel, `stop_i` and `rtc_i` (43_sequencer.md R118): changing these inputs and running
an operation commute, but for the operations that read them.
-/

namespace Sys2Proof.Machine

/-! ## Changing the inputs -/

/-- `s` with the command channel, `stop_i` and `rtc_i` changed. -/
def State.mapInputs (c : List Token → List Token) (b : Bool → Bool) (d : DateTime → DateTime) (s : State) : State :=
  { s with cmd := c s.cmd, stopI := b s.stopI, rtcI := d s.rtcI }

/-- The end of an operation over the lines with its state changed. -/
def LineRes.mapState {α : Type} (f : State → State) : LineRes α → LineRes α
  | .done a s => .done a (f s)
  | .stop c s => .stop c (f s)

section Inputs

variable {α β : Type} {c : List Token → List Token} {b : Bool → Bool} {d : DateTime → DateTime}

/-! ## The operations over the lines read none of them -/

theorem mapState_bind {f : State → State} {k : α → State → LineRes β} (r : LineRes α)
    (h : ∀ a s, k a (f s) = (k a s).mapState f) : (r.mapState f).bind k = (r.bind k).mapState f := by
  cases r with
  | done a s => exact h a s
  | stop x s => rfl

theorem lineAnswer_mapInputs (op : LineOp) (s : State) :
    lineAnswer op (s.mapInputs c b d) = (lineAnswer op s).mapState (State.mapInputs c b d) := by
  by_cases h : s.outcomeAt 0 = .ok
  · rw [lineAnswer_ok h, lineAnswer_ok (s := s.mapInputs c b d) h]; rfl
  · rw [lineAnswer_stop h, lineAnswer_stop (s := s.mapInputs c b d) h]; rfl

theorem lineSetClk_mapInputs (v : Level) (s : State) :
    lineSetClk v (s.mapInputs c b d) = (lineSetClk v s).mapState (State.mapInputs c b d) := by
  rw [lineSetClk, lineAnswer_mapInputs]
  exact mapState_bind _ fun _ _ => rfl

theorem lineSetData_mapInputs (v : Level) (s : State) :
    lineSetData v (s.mapInputs c b d) = (lineSetData v s).mapState (State.mapInputs c b d) := by
  rw [lineSetData, lineAnswer_mapInputs]
  exact mapState_bind _ fun _ _ => rfl

theorem lineGet_mapInputs (s : State) :
    lineGet (s.mapInputs c b d) = (lineGet s).mapState (State.mapInputs c b d) := by
  rw [lineGet, lineAnswer_mapInputs]
  exact mapState_bind _ fun _ _ => rfl

theorem runPrims_mapInputs (ps : List Prim) (s : State) :
    runPrims ps (s.mapInputs c b d) = (runPrims ps s).mapState (State.mapInputs c b d) := by
  induction ps generalizing s with
  | nil => rfl
  | cons p ps ih =>
    cases p with
    | wait t => exact ih (s.delay t)
    | setClk v =>
      rw [runPrims, lineSetClk_mapInputs]
      exact mapState_bind _ fun _ s => ih s
    | setData v =>
      rw [runPrims, lineSetData_mapInputs]
      exact mapState_bind _ fun _ s => ih s
    | get =>
      rw [runPrims, lineGet_mapInputs]
      refine mapState_bind _ fun _ s => ?_
      rw [ih]
      exact mapState_bind _ fun _ _ => rfl

theorem recvBit_mapInputs (s : State) :
    recvBit (s.mapInputs c b d) = (recvBit s).mapState (State.mapInputs c b d) := by
  rw [recvBit, runPrims_mapInputs]
  exact mapState_bind _ fun _ _ => rfl

theorem xchgByte_mapInputs (x : Byte) (s : State) :
    xchgByte x (s.mapInputs c b d) = (xchgByte x s).mapState (State.mapInputs c b d) := by
  rw [xchgByte, runPrims_mapInputs]
  exact mapState_bind _ fun _ _ => rfl

theorem xchgRest_mapInputs (f : List Byte) (s : State) :
    xchgRest f (s.mapInputs c b d) = (xchgRest f s).mapState (State.mapInputs c b d) := by
  induction f generalizing s with
  | nil => rfl
  | cons x f ih =>
    rw [xchgRest, xchgByte_mapInputs]
    exact mapState_bind _ fun _ s => ih (s.delay .byteGap)

theorem xchgFrame_mapInputs (f : List Byte) (s : State) :
    xchgFrame f (s.mapInputs c b d) = (xchgFrame f s).mapState (State.mapInputs c b d) := by
  cases f with
  | nil => rfl
  | cons x f =>
    rw [xchgFrame, xchgByte_mapInputs]
    refine mapState_bind _ fun _ s => ?_
    rw [show (s.mapInputs c b d).delay .byteGap = (s.delay .byteGap).mapInputs c b d from rfl, recvBit_mapInputs]
    exact mapState_bind _ fun _ s => xchgRest_mapInputs f (s.delay .byteGap)

/-- Nor do fault entry and reset, so an operation over the lines reads what its continuation reads. -/
theorem conclude_mapInputs {t : Option FrameType} {r : LineRes α} {k : α → State → Result}
    (h : ∀ a s, k a (s.mapInputs c b d) = onNext (State.mapInputs c b d) (k a s)) :
    conclude t (r.mapState (State.mapInputs c b d)) k = onNext (State.mapInputs c b d) (conclude t r k) := by
  cases r with
  | done a s => exact h a s
  | stop x s =>
    cases x with
    | reset => rfl
    | lineFault op => cases t <;> rfl

/-! ## The operations of the sequencer -/

theorem sentinelTest_mapInputs (p : Step) (s : State) :
    sentinelTest p (s.mapInputs c b d) = onNext (State.mapInputs c b d) (sentinelTest p s) := by
  cases h : s.record[s.par.sentIdx]? with
  | none =>
    have h := List.getElem?_eq_none_iff.mp h
    rw [sentinelTest_absent p h, sentinelTest_absent (s := s.mapInputs c b d) p h]; rfl
  | some e => rw [sentinelTest_of_entry p h, sentinelTest_of_entry (s := s.mapInputs c b d) p h]; rfl

theorem postStep_mapInputs (p : Step) (r : Byte) (s : State) :
    (s.mapInputs c b d).postStep p r = (s.postStep p r).mapInputs c b d := by
  rw [State.postStep, State.postStep, voidTest_eq, voidTest_eq]
  cases p <;> rfl

theorem execPost_mapInputs (p : Step) (s : State) :
    execPost p (s.mapInputs c b d) = onNext (State.mapInputs c b d) (execPost p s) := by
  cases h : s.record[s.par.respIdx]? with
  | none =>
    have h := List.getElem?_eq_none_iff.mp h
    rw [execPost_absent p h, execPost_absent (s := s.mapInputs c b d) p h]; rfl
  | some e =>
    rw [execPost_of_entry p h, execPost_of_entry (s := s.mapInputs c b d) p h, postStep_mapInputs]; rfl

/-- STEP_DT does not read the command channel and `stop_i`. -/
theorem execStepDt_mapInputs (s : State) :
    execStepDt (s.mapInputs c b id) = onNext (State.mapInputs c b id) (execStepDt s) := by
  have hr : (s.mapInputs c b id).rtcI = s.rtcI := rfl
  rw [execStepDt, execStepDt, hr]
  split
  · rw [xchgFrame_mapInputs]
    exact conclude_mapInputs fun _ _ => rfl
  · rfl

theorem cycleStart_mapInputs (s : State) : (s.mapInputs c b d).cycleStart = s.cycleStart.mapInputs c b d := by
  have hm : (s.mapInputs c b d).par.flagsMutable = s.par.flagsMutable := rfl
  rw [State.cycleStart, State.cycleStart, hm]
  split <;> rfl

/-- POLL does not read `rtc_i`. -/
theorem pollStep_mapInputs (s : State) : (s.mapInputs id id d).pollStep = s.pollStep.mapInputs id id d := by
  cases hs : s.stopI with
  | true => rw [pollStep_of_stop hs, pollStep_of_stop (s := s.mapInputs id id d) hs]; rfl
  | false =>
    match hc : s.cmd with
    | .shutdown :: rest =>
      rw [pollStep_of_shutdown hs hc, pollStep_of_shutdown (s := s.mapInputs id id d) hs hc]; rfl
    | .other :: rest =>
      rw [pollStep_of_other hs hc, pollStep_of_other (s := s.mapInputs id id d) hs hc, ← cycleStart_mapInputs]; rfl
    | [] =>
      by_cases ht : 3000000 ≤ s.pollT.toNat
      · rw [pollStep_of_timeout hs hc ht, pollStep_of_timeout (s := s.mapInputs id id d) hs hc ht,
          ← cycleStart_mapInputs]; rfl
      · have ht : s.pollT.toNat < 3000000 := by omega
        rw [pollStep_of_waiting hs hc ht, pollStep_of_waiting (s := s.mapInputs id id d) hs hc ht]; rfl

theorem execPoll_mapInputs (s : State) :
    execPoll (s.mapInputs id id d) = onNext (State.mapInputs id id d) (execPoll s) := by
  rw [execPoll, execPoll, pollStep_mapInputs]; rfl

/-- Every operation but POLL and STEP_DT reads none of the three inputs. -/
theorem exec_mapInputs {i : Instr} (hp : i ≠ .poll) (hd : i ≠ .stepDt) (s : State) :
    exec i (s.mapInputs c b d) = onNext (State.mapInputs c b d) (exec i s) := by
  cases i with
  | poll => contradiction
  | stepDt => contradiction
  | lineSetClk v =>
    rw [exec, execLineSetClk, lineSetClk_mapInputs]
    exact conclude_mapInputs fun _ _ => rfl
  | lineSetData v =>
    rw [exec, execLineSetData, lineSetData_mapInputs]
    exact conclude_mapInputs fun _ _ => rfl
  | lineGet =>
    rw [exec, execLineGet, lineGet_mapInputs]
    exact conclude_mapInputs fun _ _ => rfl
  | recvBit =>
    rw [exec, execRecvBit, recvBit_mapInputs]
    exact conclude_mapInputs fun _ _ => rfl
  | xchgByte x =>
    rw [exec, execXchgByte, xchgByte_mapInputs]
    exact conclude_mapInputs fun _ _ => rfl
  | xchgFrame f =>
    rw [exec, exec, execXchgFrame, execXchgFrame]
    split
    · rfl
    · rw [xchgFrame_mapInputs]
      exact conclude_mapInputs fun _ _ => rfl
  | stepPart =>
    rw [exec, execStepPart, xchgFrame_mapInputs]
    exact conclude_mapInputs fun _ s => sentinelTest_mapInputs .part (s.returns .nothing)
  | stepZone =>
    rw [exec, execStepZone, xchgFrame_mapInputs]
    exact conclude_mapInputs fun _ s => sentinelTest_mapInputs .zone (s.returns .nothing)
  | stepLights =>
    rw [exec, execStepLights, xchgFrame_mapInputs]
    exact conclude_mapInputs fun _ _ => rfl
  | query p =>
    rw [exec, execQuery, xchgFrame_mapInputs]
    exact conclude_mapInputs fun _ _ => rfl
  | post p => exact execPost_mapInputs p s
  | cksum f =>
    rw [exec, exec, execCksum, execCksum]
    split <;> rfl
  | buildDt t =>
    rw [exec, exec, execBuildDt, execBuildDt]
    split <;> rfl
  | buildPart | buildZone | buildLights | buildQuery | encStatus | decResp | halt | fault => rfl

end Inputs

/-- Settles O49: the other levels are a change of the inputs, and the one operation left in each half does not read them. -/
theorem onlyPollReadsCommandsAndStop : Obligations.OnlyPollReadsCommandsAndStop := by
  refine fun s i => ⟨fun c b hp => ?_, fun d hd => ?_⟩
  · by_cases hi : i = .stepDt
    · rw [hi]; exact execStepDt_mapInputs (c := fun _ => c) (b := fun _ => b) s
    · exact exec_mapInputs (c := fun _ => c) (b := fun _ => b) (d := id) hp hi s
  · by_cases hi : i = .poll
    · rw [hi]; exact execPoll_mapInputs (d := fun _ => d) s
    · exact exec_mapInputs (c := id) (b := id) (d := fun _ => d) hi hd s

end Sys2Proof.Machine
end

section
/-!
PROOFS. The line fault (60_exceptions.md R124 to R127): what fault entry records, where it ends a frame, and the quiescence after it
(70_reset_and_hazards.md R135).
-/

namespace Sys2Proof.Machine

/-! ## What fault entry records (R30, R124) -/

/-- FAULT_INFO names the frame in which the fault struck (R30). -/
@[simp] theorem mkFaultInfo_frame (t : FrameType) (n : Nat) (op : LineOp) :
    (mkFaultInfo t n op).extractLsb' 0 3 = frameCode t := BitVec.extractLsb'_append_eq_right

/-- FAULT_INFO holds REC_LEN, five bits of the number of entries (R30, log 18). -/
@[simp] theorem mkFaultInfo_entries (t : FrameType) (n : Nat) (op : LineOp) :
    (mkFaultInfo t n op).extractLsb' 3 5 = BitVec.ofNat 5 n := by
  rw [mkFaultInfo, BitVec.extractLsb'_append_eq_of_le (by decide)]
  exact BitVec.extractLsb'_append_eq_right

/-- Settles O42: each of the three fields of FAULT_INFO by its place. -/
theorem faultEntry : Obligations.FaultEntry := by
  refine fun s t op hlen => ⟨s.takeFault t op, rfl, faultsTo_takeFault s t op, ?_, ?_, ?_⟩
  · rw [State.takeFault_faultInfo, mkFaultInfo_entries, BitVec.toNat_ofNat]
    exact Nat.mod_eq_of_lt hlen
  · rw [State.takeFault_faultInfo, mkFaultInfo_frame]
    cases t <;> rfl
  · rw [State.takeFault_faultInfo, mkFaultInfo_op]
    cases op <;> rfl

/-! ## A line fault in a frame (R124, R126) -/

/-- Settles O43: the operation concludes the exchange of its frame, and that is cut off at place `k`. -/
theorem lineFaultEndsTheFrame : Obligations.LineFaultEndsTheFrame := by
  intro s i t f k hi hk hc hf
  obtain ⟨hne, c, he⟩ := exec_of_sendsFrame hi
  obtain ⟨v, hv, hcut⟩ := xchgFrame_stop hne hk hc (by simp [hf])
  rw [he]
  exact conclude_fault_partWay rfl (by rw [hv, hf]; rfl) hcut

/-! ## STOPPED and FAULTED (R127, R135) -/

/-- With reset low, no call and no reserved encoding, a step does what the block does where SEQ stands. -/
theorem step_eq_control_run {s : State} {c : Control} (hr : s.arrive.resetI = false) (hc : s.arrive.call = none)
    (hres : s.arrive.reservedCode = none) (hq : s.arrive.seq = c.seq) : step s = c.run s.arrive := by
  rw [step_eq hr hres, fetch_seq hc, fetched_of_none hc, decode, hq]
  exact c.run_eq hc

/-- Settles O8: the two values are SEQ of the places where the block does nothing. -/
theorem stoppedAndFaultedStay : Obligations.StoppedAndFaultedStay := by
  rintro s hr hc hres (hq | hq)
  · exact step_eq_control_run (c := .stopped) hr hc hres hq
  · exact step_eq_control_run (c := .faulted) hr hc hres hq

end Sys2Proof.Machine
end

section
/-!
PROOFS. Reset (70_reset_and_hazards.md R136, R137) and the nominal time of a frame exchange (R149).
-/

namespace Sys2Proof.Machine

/-! ## Reset (R136, R137) -/

/-- Asserted reset comes before everything else a step does. -/
theorem step_of_resetI {s : State} (h : s.arrive.resetI = true) : step s = .next s.arrive.applyReset := by
  simp [step, h]

/-- Settles O2: the reset state is that of `applyReset`. -/
theorem assertedResetTakesResetState : Obligations.AssertedResetTakesResetState :=
  fun s h => ⟨s.arrive.applyReset, step_of_resetI h, resetTo_applyReset s.arrive⟩

/-- The channels are empty, and RESP_IDX and SENT_IDX have their defaults (R6). -/
theorem reset_bounded : State.reset.Bounded :=
  ⟨Nat.zero_le _, Nat.zero_le _, ⟨by decide, by decide⟩, rfl⟩

theorem applyReset_reset : State.reset.applyReset = State.reset := rfl

/-- Settles O46: the block after reset is one that reset leads to. -/
theorem invariantAtReset : Obligations.InvariantAtReset := by
  unfold Obligations.InvariantAtReset
  rw [← applyReset_reset]
  exact reset_bounded.applyReset_inv

/-! ## The nominal time of an exchange (R6, R149) -/

theorem nominalTime_append (es es' : List Event) : nominalTime (es ++ es') = nominalTime es + nominalTime es' := by
  simp [nominalTime]

theorem nominalTime_gap : nominalTime [.wait .byteGap] = 1000 := rfl

/-- A bit period lasts `T_XSETUP + T_DRIVE + T_CLKHIGH + T_BITGAP` (R84). -/
theorem nominalTime_periodEvents (v r : Level) : nominalTime (periodEvents v r) = 590 := by
  simp [nominalTime, periodEvents, Event.nominal, nominal]

/-- A bit slot lasts `T_SETUP + T_HOLD + T_SETTLE` (R83). -/
theorem nominalTime_bitEvents (r : Level) : nominalTime (bitEvents r) = 850 := by
  simp [nominalTime, bitEvents, Event.nominal, nominal]

theorem nominalTime_periods (vs rs : List Level) :
    nominalTime (List.zipWith periodEvents vs rs).flatten = min vs.length rs.length * 590 := by
  induction vs generalizing rs with
  | nil => simp [nominalTime]
  | cons v vs ih =>
    cases rs with
    | nil => simp [nominalTime]
    | cons r rs =>
      rw [List.zipWith_cons_cons, List.flatten_cons, nominalTime_append, nominalTime_periodEvents, ih]
      simp only [List.length_cons]
      omega

/-- A byte slot has eight bit periods (R84). -/
theorem nominalTime_byteEvents (s : State) (b : Byte) (k : Nat) : nominalTime (byteEvents b (s.samplesFrom k 8)) = 4720 := by
  rw [byteEvents, nominalTime_periods]
  simp [bitsOf]

/-- Each further byte slot is followed by a gap (R86). -/
theorem nominalTime_restEvents (s : State) (k : Nat) (bs : List Byte) :
    nominalTime (restEvents s k bs) = bs.length * (4720 + 1000) := by
  induction bs generalizing k with
  | nil => rw [List.length_nil, Nat.zero_mul]; rfl
  | cons b bs ih =>
    rw [restEvents, nominalTime_append, nominalTime_append, nominalTime_byteEvents, nominalTime_gap, ih, List.length_cons]
    omega

/-- `n` byte slots, the turnaround slot, and a gap after each of the `n + 1` (R86, R149). -/
theorem nominalTime_frameEvents (s : State) {f : List Byte} (h : f ≠ []) :
    nominalTime (frameEvents s f) = f.length * 4720 + 850 + (f.length + 1) * 1000 := by
  cases f with
  | nil => exact absurd rfl h
  | cons b bs =>
    simp only [frameEvents, nominalTime_append, nominalTime_byteEvents, nominalTime_bitEvents, nominalTime_gap,
      nominalTime_restEvents, List.length_cons]
    omega

/-- Settles O17: the trace appended is that of a frame exchange. -/
theorem frameExchangeNominalTime : Obligations.FrameExchangeNominalTime := by
  intro s t f es h5 hc he ht
  rw [exec_xchgFrame_done h5 hc] at he
  injection he with he
  have hes : es = frameEvents s f := by
    rw [← he] at ht
    exact (List.append_cancel_left ht).symm
  rw [hes]
  exact nominalTime_frameEvents s (ne_nil_of_five_le h5)

end Sys2Proof.Machine
end
